-- ==== Sys2Proof/Word.lean ====
section
/-! DEFINITION. The values of 00_scope.md rule R10: a byte, the 32-bit error counter, and the range of an i32. -/

namespace Sys2Proof

/-- A byte (u8), rule R10. -/
abbrev Byte := BitVec 8

/-- The error counter's word, rule R28: 32 bits, wrapping. -/
abbrev Word32 := BitVec 32

/-- `v` is an i32, rule R10: "an integer in [-2^31, 2^31). Only its value matters". -/
abbrev IsI32 (v : Int) : Prop := -2147483648 ≤ v ∧ v < 2147483648

end Sys2Proof
end

