-- ==== Sys2Proof/Config.lean ====
section
/-! DEFINITION. The profile and sizing parameters of 00_scope.md rule R7, and the free values of the model.
What is computed from a profile (the derived sizes, WF(P), ESCMAP, CHK, the default profile P0) is in Machine/Params.lean. -/

namespace Sys2Proof

/-- The checksum function CHK of a profile (R7; 40_codec.md R102, R103).
`sum8` is SUM8, the checksum of P0. `custom id` stands for any other function of width CHK_W:
its bytes are the uninterpreted `Config.chkByte id`. -/
inductive ChkAlg where
  | sum8
  | custom (id : Nat)
deriving DecidableEq, Repr

/-- The parameters of R7. ESCMAP is a function on {START, STOP, ESC}; its three values are
`escStart`, `escStop` and `escEsc`. -/
structure Profile where
  start        : Byte
  stop         : Byte
  esc          : Byte
  escStart     : Byte
  escStop      : Byte
  escEsc       : Byte
  chkW         : Nat
  chk          : ChkAlg
  maxFrameSize : Nat
  numPorts     : Nat
  rejectCmd    : Byte
deriving DecidableEq, Repr

/-- Byte `k` of the checksum that the profile's own function number `id` gives a byte list
(R7 `CHK`: "list of u8 -> list of u8 of length CHK_W"). A free value: nothing constrains it. -/
opaque Config.chkByte : (id : Nat) → List Byte → (k : Nat) → Byte

/-- Free bytes: what disp_cmd, rej_cmd and the command of req[r] hold after RESET
(70_reset_and_hazards.md R200: "unspecified"). -/
opaque Config.unspecByte : Nat → Byte

/-- Free naturals: what disp_len holds after RESET (R200: "unspecified"). -/
opaque Config.unspecNat : Nat → Nat

/-- Free byte lists: what the parameter of req[r] holds after RESET (R200: "unspecified"). -/
opaque Config.unspecBytes : Nat → List Byte

end Sys2Proof
end

