-- ==== Sys2Proof/Syntax.lean ====
section
/-! DEFINITION. The operations of 30_encoding.md rule R81 (one constructor per row of opcode_table.json), their operand
types, the agents that take them, and the operation word: a tag with typed operands beside it (rule R80). -/

namespace Sys2Proof

/-- The agents of 10_state.md R20, with the two stateless users of R81's "who" column (`codec`, `message`),
and `anyExternal` for STATUS_READ ("any external agent"). `callerP` stands for CALLER(p), p being the operand. -/
inductive Agent where
  | ctl | anyExternal | codec | message | rxe | hnd | callerP | txe | chout
deriving DecidableEq, Repr

/-- INIT's draw (44_control.md R170: "choose outcome in {OK, FAIL}"). -/
inductive InitDraw where
  | ok
  | fail
deriving DecidableEq, Repr

/-- Requester identifiers (30_encoding.md R84): EXT(k), or RXE. -/
inductive Requester where
  | ext (k : Nat)
  | rxe
deriving DecidableEq, Repr

/-- The 28 operations of R81, with the operands its rows give them. -/
inductive Instr where
  | reset
  | init (stackSize priority : Nat) (draw : InitDraw)
  | statusRead
  | delimClass (b : Byte)
  | chkGen (body : List Byte)
  | chkVerify (raw : List Byte)
  | stuffByte (b : Byte)
  | stuff (x : List Byte)
  | destuff (s : List Byte)
  | delimWrap (s : List Byte)
  | stuffAndChecksum (body : List Byte)
  | destuffAndVerify (s : List Byte)
  | encode (cmd : Byte) (param : List Byte)
  | decodeCmd (raw : List Byte)
  | decodeParam (raw : List Byte) (totalLen : Nat)
  | rxSeek (b : Byte)
  | rxAccum (b : Byte)
  | rxOverflow (b : Byte)
  | rxStop (b : Byte)
  | hParamRead (i : Nat)
  | hReturn (s : Int)
  | rxReplyEnd
  | sendReq (p : Nat) (cmd : Byte) (param : List Byte)
  | txGrant (r : Requester)
  | txBuild
  | txEmit
  | txAbort
  | txComplete
deriving DecidableEq, Repr

/-- The operation word F-OP (R80): the 8-bit tag, and beside it one typed lane for each kind of operand an
operation can carry. An operation reads the lanes its row of R81 names and no other. -/
structure OpWord where
  tag       : Byte
  byte      : Byte := 0
  bytes     : List Byte := []
  nat       : Nat := 0
  nat2      : Nat := 0
  status    : Int := 0
  requester : Requester := .ext 0
  draw      : InitDraw := .ok
deriving DecidableEq, Repr

end Sys2Proof
end

