-- ==== Sys2Proof/WellFormed.lean ====
section
/-! DEFINITION. The operand ranges of 30_encoding.md rule R81 and of the rows of opcode_table.json. -/

namespace Sys2Proof

/-- The operand ranges the spec writes beside an operation, under profile `P`:
the status of H_RETURN is an i32 (R85); total_len equals the length of raw (R123); the port of SEND_REQ and the
external requester of TX_GRANT are ports of the block (R84, R150); RX_STOP's byte is STOP and the byte of
RX_ACCUM and RX_OVERFLOW is not (R132 to R134). An operation outside them still has the meaning its rule gives. -/
def Instr.WellFormed (P : Profile) : Instr → Bool
  | .reset => true
  | .init _ _ _ => true
  | .statusRead => true
  | .delimClass _ => true
  | .chkGen _ => true
  | .chkVerify _ => true
  | .stuffByte _ => true
  | .stuff _ => true
  | .destuff _ => true
  | .delimWrap _ => true
  | .stuffAndChecksum _ => true
  | .destuffAndVerify _ => true
  | .encode _ _ => true
  | .decodeCmd _ => true
  | .decodeParam raw totalLen => decide (totalLen = raw.length)
  | .rxSeek _ => true
  | .rxAccum b => decide (b ≠ P.stop)
  | .rxOverflow b => decide (b ≠ P.stop)
  | .rxStop b => decide (b = P.stop)
  | .hParamRead _ => true
  | .hReturn s => decide (IsI32 s)
  | .rxReplyEnd => true
  | .sendReq p _ _ => decide (p < P.numPorts)
  | .txGrant (.ext k) => decide (k < P.numPorts)
  | .txGrant .rxe => true
  | .txBuild => true
  | .txEmit => true
  | .txAbort => true
  | .txComplete => true

end Sys2Proof
end

