-- ==== Sys2Proof/Decode.lean ====
section
/-! DEFINITION. The operation map of 30_encoding.md rules R80 to R82: the decoder, total on every word, which rejects
the reserved tags by name; the encoder; and the agent that takes each operation. -/

namespace Sys2Proof

/-- Why a word decodes to no operation. -/
inductive DecodeError where
  /-- The tag is not listed in R81 (R82: "A reserved tag names no operation"). -/
  | reservedOp (tag : Byte)
deriving DecidableEq, Repr

/-- `tag[7:4]`, the group (R80). -/
def tagGroup (tag : Byte) : Nat := tag.toNat / 16

/-- `tag[3:0]`, the index within the group (R80). -/
def tagIndex (tag : Byte) : Nat := tag.toNat % 16

/-- Group 0, control. -/
def decodeControl (w : OpWord) (index : Nat) : Option Instr :=
  match index with
  | 0 => some .reset
  | 1 => some (.init w.nat w.nat2 w.draw)
  | 2 => some .statusRead
  | _ => none

/-- Group 1, frame codec. -/
def decodeCodec (w : OpWord) (index : Nat) : Option Instr :=
  match index with
  | 0 => some (.delimClass w.byte)
  | 1 => some (.chkGen w.bytes)
  | 2 => some (.chkVerify w.bytes)
  | 3 => some (.stuffByte w.byte)
  | 4 => some (.stuff w.bytes)
  | 5 => some (.destuff w.bytes)
  | 6 => some (.delimWrap w.bytes)
  | 7 => some (.stuffAndChecksum w.bytes)
  | 8 => some (.destuffAndVerify w.bytes)
  | _ => none

/-- Group 2, message codec. -/
def decodeMessage (w : OpWord) (index : Nat) : Option Instr :=
  match index with
  | 0 => some (.encode w.byte w.bytes)
  | 1 => some (.decodeCmd w.bytes)
  | 2 => some (.decodeParam w.bytes w.nat)
  | _ => none

/-- Group 3, receive engine and handler. -/
def decodeReceive (w : OpWord) (index : Nat) : Option Instr :=
  match index with
  | 0 => some (.rxSeek w.byte)
  | 1 => some (.rxAccum w.byte)
  | 2 => some (.rxOverflow w.byte)
  | 3 => some (.rxStop w.byte)
  | 4 => some (.hParamRead w.nat)
  | 5 => some (.hReturn w.status)
  | 6 => some .rxReplyEnd
  | _ => none

/-- Group 4, transmit engine and arbiter. -/
def decodeTransmit (w : OpWord) (index : Nat) : Option Instr :=
  match index with
  | 0 => some (.sendReq w.nat w.byte w.bytes)
  | 1 => some (.txGrant w.requester)
  | 2 => some .txBuild
  | 3 => some .txEmit
  | 4 => some .txAbort
  | 5 => some .txComplete
  | _ => none

/-- The operation that a word's group and index name, if R81 lists them. -/
def decodeGroup (w : OpWord) : Option Instr :=
  match tagGroup w.tag with
  | 0 => decodeControl w (tagIndex w.tag)
  | 1 => decodeCodec w (tagIndex w.tag)
  | 2 => decodeMessage w (tagIndex w.tag)
  | 3 => decodeReceive w (tagIndex w.tag)
  | 4 => decodeTransmit w (tagIndex w.tag)
  | _ => none

/-- The decoder: the operation of R81, or the rejection `reservedOp` of R82. -/
def decode (w : OpWord) : Except DecodeError Instr :=
  match decodeGroup w with
  | some i => .ok i
  | none => .error (.reservedOp w.tag)

/-- The tag of each operation, the first column of R81. -/
def Instr.tag : Instr → Byte
  | .reset => 0x00
  | .init _ _ _ => 0x01
  | .statusRead => 0x02
  | .delimClass _ => 0x10
  | .chkGen _ => 0x11
  | .chkVerify _ => 0x12
  | .stuffByte _ => 0x13
  | .stuff _ => 0x14
  | .destuff _ => 0x15
  | .delimWrap _ => 0x16
  | .stuffAndChecksum _ => 0x17
  | .destuffAndVerify _ => 0x18
  | .encode _ _ => 0x20
  | .decodeCmd _ => 0x21
  | .decodeParam _ _ => 0x22
  | .rxSeek _ => 0x30
  | .rxAccum _ => 0x31
  | .rxOverflow _ => 0x32
  | .rxStop _ => 0x33
  | .hParamRead _ => 0x34
  | .hReturn _ => 0x35
  | .rxReplyEnd => 0x36
  | .sendReq _ _ _ => 0x40
  | .txGrant _ => 0x41
  | .txBuild => 0x42
  | .txEmit => 0x43
  | .txAbort => 0x44
  | .txComplete => 0x45

/-- The encoder: the tag of R81 with the operation's operands in their lanes and every other lane zero. -/
def encode (i : Instr) : OpWord :=
  match i with
  | .reset => { tag := i.tag }
  | .init stackSize priority draw => { tag := i.tag, nat := stackSize, nat2 := priority, draw := draw }
  | .statusRead => { tag := i.tag }
  | .delimClass b => { tag := i.tag, byte := b }
  | .chkGen body => { tag := i.tag, bytes := body }
  | .chkVerify raw => { tag := i.tag, bytes := raw }
  | .stuffByte b => { tag := i.tag, byte := b }
  | .stuff x => { tag := i.tag, bytes := x }
  | .destuff s => { tag := i.tag, bytes := s }
  | .delimWrap s => { tag := i.tag, bytes := s }
  | .stuffAndChecksum body => { tag := i.tag, bytes := body }
  | .destuffAndVerify s => { tag := i.tag, bytes := s }
  | .encode cmd param => { tag := i.tag, byte := cmd, bytes := param }
  | .decodeCmd raw => { tag := i.tag, bytes := raw }
  | .decodeParam raw totalLen => { tag := i.tag, bytes := raw, nat := totalLen }
  | .rxSeek b => { tag := i.tag, byte := b }
  | .rxAccum b => { tag := i.tag, byte := b }
  | .rxOverflow b => { tag := i.tag, byte := b }
  | .rxStop b => { tag := i.tag, byte := b }
  | .hParamRead k => { tag := i.tag, nat := k }
  | .hReturn s => { tag := i.tag, status := s }
  | .rxReplyEnd => { tag := i.tag }
  | .sendReq p cmd param => { tag := i.tag, nat := p, byte := cmd, bytes := param }
  | .txGrant r => { tag := i.tag, requester := r }
  | .txBuild => { tag := i.tag }
  | .txEmit => { tag := i.tag }
  | .txAbort => { tag := i.tag }
  | .txComplete => { tag := i.tag }

/-- The agent whose step an operation is: the "who" column of R81 (60_exceptions.md R191).
TX_EMIT is TXE's step with CHOUT. -/
def Instr.agent : Instr → Agent
  | .reset | .init _ _ _ => .ctl
  | .statusRead => .anyExternal
  | .delimClass _ | .chkGen _ | .chkVerify _ | .stuffByte _ | .stuff _ | .destuff _ | .delimWrap _
  | .stuffAndChecksum _ | .destuffAndVerify _ => .codec
  | .encode _ _ | .decodeCmd _ | .decodeParam _ _ => .message
  | .rxSeek _ | .rxAccum _ | .rxOverflow _ | .rxStop _ | .rxReplyEnd => .rxe
  | .hParamRead _ | .hReturn _ => .hnd
  | .sendReq _ _ _ => .callerP
  | .txGrant _ | .txBuild | .txEmit | .txComplete => .txe
  | .txAbort => .chout

/-- The operation word of a row of opcode_table.json: its `nbits` bits are the tag, and every operand lane is zero. -/
def tableWord (nbits w : Nat) : OpWord := { tag := BitVec.ofNat 8 (w % 2 ^ nbits) }

/-- The operation the decoder reads from a row's bits. -/
def decodeTableWord (nbits w : Nat) : Option Instr :=
  match decode (tableWord nbits w) with
  | .ok i => some i
  | .error _ => none

end Sys2Proof
end

