-- ==== Sys2Proof/Machine/Params.lean ====
section
/-! DEFINITION. What 00_scope.md rules R7 to R9 and 40_codec.md rules R100 and R103 compute from a profile: the derived
sizes, the reserved set, ESCMAP and its inverse, the checksum function, well-formedness WF(P), and the default profile P0. -/

namespace Sys2Proof

/-- RSV = {START, STOP, ESC} (R8, R100). -/
def Profile.rsv (P : Profile) : List Byte := [P.start, P.stop, P.esc]

/-- ESCMAP on RSV (R7). Its value off RSV is never used. -/
def Profile.escMap (P : Profile) (b : Byte) : Byte :=
  if b = P.start then P.escStart else if b = P.stop then P.escStop else P.escEsc

/-- EIMG = {ESCMAP(b) | b in RSV} (R100). -/
def Profile.eimg (P : Profile) : List Byte := P.rsv.map P.escMap

/-- UNESC(y): the b in RSV with ESCMAP(b) = y, none for y outside EIMG (R100). -/
def Profile.unesc (P : Profile) (y : Byte) : Option Byte := P.rsv.find? (fun b => decide (P.escMap b = y))

/-- The sum of a byte list, as a byte: addition wraps mod 256 (R103). -/
def sumBytes : List Byte → Byte
  | [] => 0
  | b :: rest => b + sumBytes rest

/-- CHK (R7, R102, R103): SUM8, or the profile's own function, whose bytes are uninterpreted. -/
def Profile.checksum (P : Profile) (x : List Byte) : List Byte :=
  match P.chk with
  | .sum8 => [sumBytes x]
  | .custom id => (List.range P.chkW).map (Config.chkByte id x)

/-- MIN_FRAME = 1 + CHK_W (R8). -/
def Profile.minFrame (P : Profile) : Nat := 1 + P.chkW

/-- MAX_PARAM = MAX_FRAME_SIZE - 1 - CHK_W (R8). -/
def Profile.maxParam (P : Profile) : Nat := P.maxFrameSize - 1 - P.chkW

/-- The number of cells of RXB (20_memory.md R50). -/
def Profile.rxbSize (P : Profile) : Nat := P.maxFrameSize

/-- TXB_SIZE = MAX_FRAME_SIZE + 2, the number of cells of TXB (R8, R50). -/
def Profile.txbSize (P : Profile) : Nat := P.maxFrameSize + 2

/-- The width of CHK's result is CHK_W (R9 d). SUM8 has width 1; a profile's own function has width CHK_W. -/
def Profile.chkWidthOk (P : Profile) : Bool :=
  match P.chk with
  | .sum8 => decide (P.chkW = 1)
  | .custom _ => true

/-- WF(P), conditions (a) to (g) of R9. -/
def Profile.wf (P : Profile) : Bool :=
  decide (P.start ≠ P.stop ∧ P.start ≠ P.esc ∧ P.stop ≠ P.esc)
    && P.rsv.all (fun b => decide (P.escMap b ∉ P.rsv))
    && P.rsv.all (fun b => P.rsv.all (fun c => decide (P.escMap b = P.escMap c → b = c)))
    && P.chkWidthOk
    && decide (1 ≤ P.chkW)
    && decide (P.minFrame ≤ P.maxFrameSize)
    && decide (1 ≤ P.numPorts)

/-- The default profile P0 (R7): the spec's own choice. -/
def Profile.p0 : Profile where
  start := 0x02
  stop := 0x03
  esc := 0x10
  escStart := 0x22
  escStop := 0x23
  escEsc := 0x30
  chkW := 1
  chk := .sum8
  maxFrameSize := 64
  numPorts := 2
  rejectCmd := 0xFF

end Sys2Proof
end

