-- ==== Sys2Proof/Machine/State.lean ====
section
/-! DEFINITION. The architectural state of 10_state.md rules R21 to R33, the model's own four fields, the fault and refusal
names of 60_exceptions.md rule R184, the error names of 30_encoding.md rule R78, and the reset state. -/

namespace Sys2Proof.Machine

/-- A buffer space, RXB or TXB (20_memory.md R50): the written cells as (index, byte), indices strictly rising.
An index that is not listed is the mark "unwritten". -/
abbrev Memory := List Host.Cell

/-- The receive engine's stage (R23). -/
inductive RxState where
  | disabled | seek | accum | dispatch | reply
deriving DecidableEq, Repr

/-- The transmit engine's phase (R31). -/
inductive TxPhase where
  | idle | build | emit
deriving DecidableEq, Repr

/-- The lock (R29): FREE, or OWNED(r). -/
inductive Lock where
  | free
  | owned (r : Requester)
deriving DecidableEq, Repr

/-- `pst[r]` (R30). -/
inductive Pst where
  | idle | waiting | active
deriving DecidableEq, Repr

/-- A send request `(cmd, param)` (R30, R58). -/
structure Request where
  cmd   : Byte
  param : List Byte
deriving DecidableEq, Repr

/-- The three elements each requester has (R30). -/
structure Slot where
  pst  : Pst
  req  : Request
  resp : Option Int
deriving DecidableEq, Repr

/-- The result of DELIM_CLASS (40_codec.md R101). -/
inductive DelimClass where
  | start | stop | esc | data
deriving DecidableEq, Repr

/-- The error names of 30_encoding.md R78. -/
inductive ProtoError where
  | noMemory | stuffedFrameTooLong | commandTooLong | incorrectParamSize | unimplementedCommand
  | frameTooLong | badSize | badChecksum | channelWriteFailed | failedToCreateTask
deriving DecidableEq, Repr

/-- The model faults of 60_exceptions.md R184. The step that raises one records it in `State.fault` and goes to a next
state; while it is recorded, every operation but STATUS_READ (and a launching RESET) stops with it. -/
inductive Fault where
  /-- SEND_REQ while init_done is false. Safe: no claim can depend on that run (R184 "toward unprovable"). -/
  | sendBeforeInit
  /-- SEND_REQ on a port whose pst is not IDLE. Safe (R184). -/
  | portBusy
  /-- INIT while init_done is true. Safe (R184). -/
  | doubleInit
  /-- H_PARAM_READ while rx_state is not DISPATCH. Safe (R184). -/
  | paramViewExpired
  /-- H_PARAM_READ with i >= disp_len. Safe (R184). -/
  | paramViewOutOfRange
  /-- H_RETURN while rx_state is not DISPATCH. Safe (R184). -/
  | returnWithoutCall
  /-- MemRead of an unwritten cell, and DECODE_CMD of an empty list. Safe (R184). -/
  | unwrittenRead
  /-- MemRead or MemWrite outside RXB or TXB. Safe (R184). -/
  | bufferIndexOutOfRange
deriving DecidableEq, Repr

/-- The refusals of R184, and the one the host's form asks for. The step that meets one of the first four records it in
`State.refused`; while it is recorded, every operation but STATUS_READ (and a launching RESET) stops with it. -/
inductive Refusal where
  /-- RESET with an ill-formed profile (R201). Safe (R184). -/
  | badProfile
  /-- RESET that is not the first step of the run (R200). Safe (R184). -/
  | resetWhileRunning
  /-- SEND_REQ with p >= NUM_PORTS (R151). Safe (R184). -/
  | badPort
  /-- A reserved operation tag (30_encoding.md R82). Safe (R184). -/
  | reservedOp
  /-- An operation with no meaning yet; no arm of exec answers with it. Safe. -/
  | notModelled (mnemonic : String)
deriving DecidableEq, Repr

/-- A value returned at an interface (10_state.md R39). -/
inductive Result where
  /-- STATUS_READ: (err_cnt, rx_state, lock). -/
  | status (errCnt : Word32) (rxState : RxState) (lock : Lock)
  /-- DELIM_CLASS. -/
  | delim (c : DelimClass)
  /-- A byte list, or the value of `Ok`. -/
  | bytes (x : List Byte)
  /-- CHK_VERIFY. -/
  | bool (v : Bool)
  /-- DESTUFF's Malformed. -/
  | malformed
  /-- An error outcome of a codec or message function. -/
  | error (e : ProtoError)
  /-- DECODE_CMD and H_PARAM_READ. -/
  | byte (b : Byte)
  /-- DECODE_PARAM: (offset, length). -/
  | view (off len : Nat)
  /-- INIT. -/
  | code (v : Int)
deriving DecidableEq, Repr

/-- The state: the elements of R21 to R33, and the model's own `launched`, `script`, `ret` and `freeCtr`. -/
structure State where
  /-- The profile and sizes in force (R21): configuration, which no operation writes. -/
  profile  : Profile
  /-- R22. -/
  initDone : Bool
  /-- R23. -/
  rxState  : RxState
  /-- R24. -/
  rxBuf    : Memory
  /-- R25. -/
  rxCnt    : Nat
  /-- R26. -/
  dispCmd  : Byte
  /-- R26. -/
  dispLen  : Nat
  /-- R27. -/
  rejCmd   : Byte
  /-- R28. -/
  errCnt   : Word32
  /-- R29. -/
  lock     : Lock
  /-- R30: pst, req and resp of EXT(0), ..., EXT(NUM_PORTS-1). -/
  ports    : List Slot
  /-- R30: pst, req and resp of RXE. -/
  rxe      : Slot
  /-- R31. -/
  txPhase  : TxPhase
  /-- R32. -/
  txBuf    : Memory
  /-- R32. -/
  txLen    : Nat
  /-- R32. -/
  txIdx    : Nat
  /-- R33. -/
  outHist  : List Byte
  /-- R33. -/
  diagHist : List Int
  /-- R33, R184: the sticky fault mark. -/
  fault    : Option Fault
  /-- R33, R184: the sticky refused mark; `some` is the spec's `true`, with the refusal's name. -/
  refused  : Option Refusal
  /-- Model's own: the run's first step has been taken (R200's guard). -/
  launched : Bool
  /-- Model's own: the operations the environment performs, in the order of one interleaving (R14, R60, R83). -/
  script   : List OpWord
  /-- Model's own: the value last returned at an interface (R39). -/
  ret      : Option Result
  /-- Model's own: how many free values have been drawn (R200 "unspecified"). -/
  freeCtr  : Nat
deriving DecidableEq, Repr

/-- A requester's three elements at reset (R30). The spec leaves req unspecified; DESIGN CHOICE (0, []) (log 11). -/
def Slot.reset : Slot where
  pst := .idle
  req := { cmd := 0, param := [] }
  resp := none

/-- The state after reset: the table of 10_state.md section 5 under the default profile P0 (DESIGN CHOICE, log 1).
DESIGN CHOICE (log 11): disp_cmd, disp_len and rej_cmd, which the spec leaves unspecified, are 0.
DESIGN CHOICE (logs 5, 9, 12, 13): the model's own fields. -/
def State.reset : State where
  profile := Profile.p0
  initDone := false
  rxState := .disabled
  rxBuf := []
  rxCnt := 0
  dispCmd := 0
  dispLen := 0
  rejCmd := 0
  errCnt := 0
  lock := .free
  ports := List.replicate Profile.p0.numPorts Slot.reset
  rxe := Slot.reset
  txPhase := .idle
  txBuf := []
  txLen := 0
  txIdx := 0
  outHist := []
  diagHist := []
  fault := none
  refused := none
  launched := false
  script := []
  ret := none
  freeCtr := 0

end Sys2Proof.Machine
end

