-- ==== Sys2Proof/Machine/Operands.lean ====
section
/-! DEFINITION. Operand forms: a requester's three elements (10_state.md R30, 43_transmit.md R150), and the fields of a
raw payload (30_encoding.md R71, R72, R77). -/

namespace Sys2Proof.Machine

/-- `r` is in REQ = {EXT(0), ..., EXT(NUM_PORTS-1), RXE} (R8, R150). -/
def inReq (P : Profile) : Requester → Bool
  | .ext k => decide (k < P.numPorts)
  | .rxe => true

/-- REQ as a list. -/
def requesters (P : Profile) : List Requester := (List.range P.numPorts).map .ext ++ [.rxe]

/-- The elements pst[r], req[r] and resp[r]. -/
def State.slot (s : State) : Requester → Slot
  | .ext k => s.ports[k]?.getD Slot.reset
  | .rxe => s.rxe

/-- Replaces the three elements of `r`. -/
def State.setSlot (s : State) (r : Requester) (x : Slot) : State :=
  match r with
  | .ext k => { s with ports := s.ports.set k x }
  | .rxe => { s with rxe := x }

/-- F-BODY: `body = [cmd] ++ param` (R72). -/
abbrev bodyOf (cmd : Byte) (param : List Byte) : List Byte := cmd :: param

/-- F-RAW: `raw = body ++ CHK(body)` (R71). -/
abbrev rawOf (P : Profile) (body : List Byte) : List Byte := body ++ P.checksum body

/-- `raw[0..m-CHK_W)`, the bytes the checksum covers (R104). -/
abbrev rawBody (P : Profile) (raw : List Byte) : List Byte := raw.take (raw.length - P.chkW)

/-- `raw[m-CHK_W..m)`, the checksum field (R77). -/
abbrev rawChecksum (P : Profile) (raw : List Byte) : List Byte := raw.drop (raw.length - P.chkW)

/-- A view `(off, len)` of a payload: `raw[off..off+len)` (R77, R123). -/
def viewOf (raw : List Byte) (off len : Nat) : List Byte := (raw.drop off).take len

end Sys2Proof.Machine
end

