-- ==== Sys2Proof/Machine/Ops.lean ====
section
/-! DEFINITION. The named operations that the meanings share: MemRead and MemWrite (20_memory.md R51), the outcome
primitives of 00_scope.md R13, the marks of 60_exceptions.md R184, drop (R182), respond (10_state.md R30) and release
(43_transmit.md R157). -/

namespace Sys2Proof.Machine

/-- The outcome of an operation. -/
abbrev Out := Host.Outcome State Fault Refusal

/-! ## The two buffers -/

/-- The byte in cell `i`; none for a cell that is unwritten. -/
def Memory.read (m : Memory) (i : Nat) : Option Byte :=
  match m with
  | [] => none
  | c :: rest => if c.1 = i then some c.2 else Memory.read rest i

/-- Stores `v` in cell `i`, keeping the indices strictly rising. -/
def Memory.write (m : Memory) (i : Nat) (v : Byte) : Memory :=
  match m with
  | [] => [(i, v)]
  | c :: rest =>
    if i < c.1 then (i, v) :: c :: rest
    else if c.1 = i then (i, v) :: rest
    else c :: Memory.write rest i v

/-- The indices are strictly rising and at least `lo`. -/
def Memory.risingFrom (lo : Nat) (m : Memory) : Bool :=
  match m with
  | [] => true
  | c :: rest => decide (lo ≤ c.1) && Memory.risingFrom (c.1 + 1) rest

/-- The canonical form: strictly rising indices. No listed cell equals what an unlisted index reads as, since an
unlisted index reads as "unwritten" and a listed cell holds a byte. -/
def Memory.wf (m : Memory) : Bool := Memory.risingFrom 0 m

/-- Every listed cell lies in a space of `size` cells (R50). -/
def Memory.within (m : Memory) (size : Nat) : Bool := m.all (fun c => decide (c.1 < size))

/-- MemRead(SP+i, 1) for a space of `size` cells (R51). -/
def memRead (size : Nat) (m : Memory) (i : Nat) : Except Fault Byte :=
  if i < size then
    match m.read i with
    | some b => .ok b
    | none => .error .unwrittenRead
  else .error .bufferIndexOutOfRange

/-- MemWrite(SP+i, 1, v) for a space of `size` cells (R51). -/
def memWrite (size : Nat) (m : Memory) (i : Nat) (v : Byte) : Except Fault Memory :=
  if i < size then .ok (m.write i v) else .error .bufferIndexOutOfRange

/-- `[MemRead(SP+i, 1), ..., MemRead(SP+i+n-1, 1)]`, in that order; the first fault ends it. -/
def memReadList (size : Nat) (m : Memory) (i n : Nat) : Except Fault (List Byte) :=
  match n with
  | 0 => .ok []
  | k + 1 =>
    match memRead size m i with
    | .error f => .error f
    | .ok b =>
      match memReadList size m (i + 1) k with
      | .error f => .error f
      | .ok bs => .ok (b :: bs)

/-- `for k in 0..len(x)-1: MemWrite(SP+i+k, 1, x[k])`; the first fault ends it. -/
def memWriteList (size : Nat) (m : Memory) (i : Nat) (x : List Byte) : Except Fault Memory :=
  match x with
  | [] => .ok m
  | b :: rest =>
    match memWrite size m i b with
    | .error f => .error f
    | .ok m' => memWriteList size m' (i + 1) rest

/-! ## The codes of 30_encoding.md R78 -/

/-- The i32 code of each name (R78). -/
def ProtoError.code : ProtoError → Int
  | .noMemory => -1
  | .stuffedFrameTooLong => -2
  | .commandTooLong => -3
  | .incorrectParamSize => -4
  | .unimplementedCommand => -5
  | .frameTooLong => -6
  | .badSize => -7
  | .badChecksum => -8
  | .channelWriteFailed => -9
  | .failedToCreateTask => -10

/-! ## Marks, outputs and shared sequences -/

/-- `fault F`: records the sticky fault unless one is set (R184). -/
def State.fail (s : State) (f : Fault) : State := { s with fault := s.fault.or (some f) }

/-- `refuse F`: records the sticky refused mark, with the first refusal's name (R184; DESIGN CHOICE, log 8). -/
def State.refuse (s : State) (r : Refusal) : State := { s with refused := s.refused.or (some r) }

/-- Returns `v` at the interface of the step's agent (R39; DESIGN CHOICE, log 13). -/
def State.returns (s : State) (v : Result) : State := { s with ret := some v }

/-- `diag(code)` (R13). -/
def State.diag (s : State) (code : Int) : State := { s with diagHist := s.diagHist ++ [code] }

/-- `err_cnt <- (err_cnt + 1) mod 2^32` (R28). -/
def State.countError (s : State) : State := { s with errCnt := s.errCnt + 1 }

/-- `drop(E)`, the receive side's trap entry (R182). -/
def State.drop (s : State) (e : ProtoError) : State :=
  { s with errCnt := s.errCnt + 1, diagHist := s.diagHist ++ [e.code], rxState := .seek }

/-- `respond(r, v)` (R30). -/
def State.respond (s : State) (r : Requester) (v : Int) : State :=
  s.setSlot r { s.slot r with resp := some v, pst := .idle }

/-- The release sequence `release(r, v)` (R157). -/
def State.release (s : State) (r : Requester) (v : Int) : State :=
  { s with lock := .free, txPhase := .idle }.respond r v

/-- `emit(b)` (R13). -/
def State.emit (s : State) (b : Byte) : State := { s with outHist := s.outHist ++ [b] }

/-! ## When an operation is taken -/

/-- No mark is set (R184). -/
def State.running (s : State) : Bool := s.fault.isNone && s.refused.isNone

/-- While a mark is set no agent has an enabled step but STATUS_READ (R184): the machine stops with the mark's name
(DEDUCED, log 7). Otherwise the operation `k`. -/
def whenRunning (s : State) (k : Out) : Out :=
  match s.fault, s.refused with
  | some f, _ => .fault f
  | none, some r => .refused r
  | none, none => k

/-- An operation with a guard. "A guard that is false means the step is not enabled" (R14): the agent waits, and no
wait changes any state (60_exceptions.md R197; DEDUCED, log 6). -/
def whenEnabled (guard : Bool) (s : State) (k : Out) : Out :=
  whenRunning s (if guard then k else .next s)

end Sys2Proof.Machine
end

