-- ==== Sys2Proof/Machine/Flags.lean ====
section
/-! DEFINITION. The block has no condition codes (10_state.md R38): its flags are the one-of-n fields rx_state, tx_phase,
lock and pst[r]. This file holds the guards the rules compute from them, and the selection of the receive operation for
an offered byte (30_encoding.md R81). -/

namespace Sys2Proof.Machine

/-- RX_SEEK's guard (42_receive.md R131). -/
def rxSeekGuard (s : State) : Bool := decide (s.rxState = .seek)

/-- RX_ACCUM's guard (R132). -/
def rxAccumGuard (s : State) (b : Byte) : Bool :=
  decide (s.rxState = .accum ∧ b ≠ s.profile.stop ∧ s.rxCnt < s.profile.maxFrameSize)

/-- RX_OVERFLOW's guard (R133). -/
def rxOverflowGuard (s : State) (b : Byte) : Bool :=
  decide (s.rxState = .accum ∧ b ≠ s.profile.stop ∧ s.rxCnt = s.profile.maxFrameSize)

/-- RX_STOP's guard (R134). -/
def rxStopGuard (s : State) (b : Byte) : Bool :=
  decide (s.rxState = .accum ∧ b = s.profile.stop)

/-- RX_REPLY_END's guard (R139): `rx_state = REPLY` and `resp[RXE] = v` for some v. -/
def rxReplyEndGuard (s : State) : Bool := decide (s.rxState = .reply) && s.rxe.resp.isSome

/-- `r` is in WAITERS = {r' in REQ | pst[r'] = WAITING} (43_transmit.md R152). -/
def isWaiter (s : State) (r : Requester) : Bool :=
  inReq s.profile r && decide ((s.slot r).pst = .waiting)

/-- WAITERS as a list. -/
def waiters (s : State) : List Requester := (requesters s.profile).filter (isWaiter s)

/-- TX_GRANT's guard (R152). -/
def txGrantGuard (s : State) (r : Requester) : Bool := decide (s.lock = .free) && isWaiter s r

/-- The requester that holds the lock, if any (R29). -/
def State.holder (s : State) : Option Requester :=
  match s.lock with
  | .free => none
  | .owned r => some r

/-- TX_BUILD's guard (R153): `tx_phase = BUILD` and `lock = OWNED(r)`. -/
def txBuildGuard (s : State) : Bool := decide (s.txPhase = .build) && s.holder.isSome

/-- TX_EMIT's guard (R154), with `lock = OWNED(r)` (20_memory.md R53; DEDUCED, log 17). That CHOUT accepts a byte is
the step itself being taken. -/
def txEmitGuard (s : State) : Bool :=
  decide (s.txPhase = .emit ∧ s.txIdx < s.txLen) && s.holder.isSome

/-- TX_ABORT's guard (R155), with `lock = OWNED(r)`. -/
def txAbortGuard (s : State) : Bool :=
  decide (s.txPhase = .emit ∧ s.txIdx < s.txLen) && s.holder.isSome

/-- TX_COMPLETE's guard (R156), with `lock = OWNED(r)`. -/
def txCompleteGuard (s : State) : Bool :=
  decide (s.txPhase = .emit ∧ s.txIdx = s.txLen) && s.holder.isSome

/-- The guard of every operation in a state with no mark. An operation whose guard is "a step of" its agent is enabled. -/
def guardOf (i : Instr) (s : State) : Bool :=
  match i with
  | .rxSeek _ => rxSeekGuard s
  | .rxAccum b => rxAccumGuard s b
  | .rxOverflow b => rxOverflowGuard s b
  | .rxStop b => rxStopGuard s b
  | .rxReplyEnd => rxReplyEndGuard s
  | .txGrant r => txGrantGuard s r
  | .txBuild => txBuildGuard s
  | .txEmit => txEmitGuard s
  | .txAbort => txAbortGuard s
  | .txComplete => txCompleteGuard s
  | .reset | .init _ _ _ | .statusRead | .delimClass _ | .chkGen _ | .chkVerify _ | .stuffByte _ | .stuff _
  | .destuff _ | .delimWrap _ | .stuffAndChecksum _ | .destuffAndVerify _ | .encode _ _ | .decodeCmd _
  | .decodeParam _ _ | .hParamRead _ | .hReturn _ | .sendReq _ _ _ => true

/-- The operation that the event "CH_IN offers byte b" is, if RXE takes a byte in this state (R81, R130): in SEEK it is
RX_SEEK; in ACCUM it is RX_STOP if `b = STOP`, else RX_ACCUM if `rx_cnt < MAX_FRAME_SIZE`, else RX_OVERFLOW. -/
def rxSelect (s : State) (b : Byte) : Option Instr :=
  match s.rxState with
  | .seek => some (.rxSeek b)
  | .accum =>
    if b = s.profile.stop then some (.rxStop b)
    else if s.rxCnt < s.profile.maxFrameSize then some (.rxAccum b)
    else some (.rxOverflow b)
  | .disabled | .dispatch | .reply => none

end Sys2Proof.Machine
end

