-- ==== Sys2Proof/Machine/Control.lean ====
section
/-! DEFINITION. The control operations, 44_control.md, and RESET, 70_reset_and_hazards.md R200 and R201 (operations 0x00
to 0x02). -/

namespace Sys2Proof.Machine

/-- The elements of the k-th external requester after RESET (R200): pst IDLE, resp none, and req unspecified, a free
value (log 12). -/
def unspecSlot (ctr : Nat) : Slot where
  pst := .idle
  req := { cmd := Config.unspecByte ctr, param := Config.unspecBytes ctr }
  resp := none

/-- Every element at its reset value (R200). disp_cmd, disp_len, rej_cmd and req[r] are unspecified: free values, drawn
in turn from freeCtr (log 12). The profile is configuration (10_state.md R21), and the script is the environment's. -/
def State.applyReset (s : State) : State :=
  { s with
    initDone := false
    rxState := .disabled
    rxBuf := []
    rxCnt := 0
    dispCmd := Config.unspecByte s.freeCtr
    dispLen := Config.unspecNat s.freeCtr
    rejCmd := Config.unspecByte (s.freeCtr + 1)
    errCnt := 0
    lock := .free
    ports := (List.range s.profile.numPorts).map (fun k => unspecSlot (s.freeCtr + 3 + k))
    rxe := unspecSlot (s.freeCtr + 2)
    txPhase := .idle
    txBuf := []
    txLen := 0
    txIdx := 0
    outHist := []
    diagHist := []
    fault := none
    refused := none
    ret := none
    freeCtr := s.freeCtr + 3 + s.profile.numPorts }

/-- RESET, tag 0x00 (R200, R201). As the first step of the run it checks WF(P) and applies the reset values; it alone
clears the marks (60_exceptions.md R184). Anywhere else it is refused. -/
def execReset (s : State) : Out :=
  if s.launched then whenRunning s (.next (s.refuse .resetWhileRunning))
  else if s.profile.wf then .next s.applyReset
  else .next (s.refuse .badProfile)

/-- INIT(stack_size, priority), tag 0x01 (R170). The two naturals have no effect; the draw is an operand (log 19). -/
def execInit (_stackSize _priority : Nat) (draw : InitDraw) (s : State) : Out :=
  whenRunning s
    (.next
      (if s.initDone then s.fail .doubleInit
      else
        match draw with
        | .ok => { s with initDone := true, rxState := .seek }.returns (.code 0)
        | .fail => s.returns (.code ProtoError.failedToCreateTask.code)))

/-- STATUS_READ, tag 0x02 (R172): in any state, a marked one included. -/
def execStatusRead (s : State) : Out :=
  .next (s.returns (.status s.errCnt s.rxState s.lock))

end Sys2Proof.Machine
end

