-- ==== Sys2Proof/Machine/Codec.lean ====
section
/-! DEFINITION. The frame codec, 40_codec.md: its functions of the operands and the profile (rules R101 to R110), and the
standalone operations of group 1, which return the function's value and write no state. -/

namespace Sys2Proof.Machine

/-! ## The functions -/

/-- DELIM_CLASS(b) (R101). -/
def delimClass (P : Profile) (b : Byte) : DelimClass :=
  if b = P.start then .start else if b = P.stop then .stop else if b = P.esc then .esc else .data

/-- DELIM_WRAP(s) (R108). -/
abbrev delimWrap (P : Profile) (s : List Byte) : List Byte := [P.start] ++ s ++ [P.stop]

/-- CHK_GEN(body) (R102). -/
abbrev chkGen (P : Profile) (body : List Byte) : List Byte := P.checksum body

/-- CHK_VERIFY(raw) (R104). -/
def chkVerify (P : Profile) (raw : List Byte) : Bool :=
  if raw.length < P.minFrame then false else decide (P.checksum (rawBody P raw) = rawChecksum P raw)

/-- STUFF_BYTE(b) (R105). -/
def stuffByte (P : Profile) (b : Byte) : List Byte :=
  if b ∈ P.rsv then [P.esc, P.escMap b] else [b]

/-- STUFF(x) (R106). -/
def stuff (P : Profile) (x : List Byte) : List Byte :=
  match x with
  | [] => []
  | b :: rest => stuffByte P b ++ stuff P rest

/-- DESTUFF(s) (R107); `none` is Malformed. -/
def destuff (P : Profile) : List Byte → Option (List Byte)
  | [] => some []
  | [c] =>
    match delimClass P c with
    | .esc => none
    | .start => none
    | .stop => none
    | .data => some [c]
  | c :: y :: rest =>
    match delimClass P c with
    | .esc =>
      match P.unesc y with
      | none => none
      | some b => (destuff P rest).map (b :: ·)
    | .start => none
    | .stop => none
    | .data => (destuff P (y :: rest)).map (c :: ·)

/-- STUFF_AND_CHECKSUM(body) (R109). -/
def stuffAndChecksum (P : Profile) (body : List Byte) : Except ProtoError (List Byte) :=
  let sb := stuff P (body ++ chkGen P body)
  if sb.length > P.maxFrameSize then .error .stuffedFrameTooLong else .ok (delimWrap P sb)

/-- DESTUFF_AND_VERIFY(s) (R110). -/
def destuffAndVerify (P : Profile) (s : List Byte) : Except ProtoError (List Byte) :=
  if s.length < P.minFrame then .error .badSize
  else
    match destuff P s with
    | none => .error .badChecksum
    | some raw =>
      if raw.length < P.minFrame then .error .badSize
      else if chkVerify P raw then .ok raw
      else .error .badChecksum

/-- The value a function with outcomes `Ok v | E` returns at the interface. -/
def resultOf (r : Except ProtoError (List Byte)) : Result :=
  match r with
  | .ok x => .bytes x
  | .error e => .error e

/-! ## The standalone operations (30_encoding.md R81, group 1) -/

/-- DELIM_CLASS, tag 0x10 (R101). -/
def execDelimClass (b : Byte) (s : State) : Out :=
  whenRunning s (.next (s.returns (.delim (delimClass s.profile b))))

/-- CHK_GEN, tag 0x11 (R102). -/
def execChkGen (body : List Byte) (s : State) : Out :=
  whenRunning s (.next (s.returns (.bytes (chkGen s.profile body))))

/-- CHK_VERIFY, tag 0x12 (R104). -/
def execChkVerify (raw : List Byte) (s : State) : Out :=
  whenRunning s (.next (s.returns (.bool (chkVerify s.profile raw))))

/-- STUFF_BYTE, tag 0x13 (R105). -/
def execStuffByte (b : Byte) (s : State) : Out :=
  whenRunning s (.next (s.returns (.bytes (stuffByte s.profile b))))

/-- STUFF, tag 0x14 (R106). -/
def execStuff (x : List Byte) (s : State) : Out :=
  whenRunning s (.next (s.returns (.bytes (stuff s.profile x))))

/-- DESTUFF, tag 0x15 (R107). -/
def execDestuff (x : List Byte) (s : State) : Out :=
  whenRunning s (.next (s.returns (match destuff s.profile x with | some raw => .bytes raw | none => .malformed)))

/-- DELIM_WRAP, tag 0x16 (R108). -/
def execDelimWrap (x : List Byte) (s : State) : Out :=
  whenRunning s (.next (s.returns (.bytes (delimWrap s.profile x))))

/-- STUFF_AND_CHECKSUM, tag 0x17 (R109). -/
def execStuffAndChecksum (body : List Byte) (s : State) : Out :=
  whenRunning s (.next (s.returns (resultOf (stuffAndChecksum s.profile body))))

/-- DESTUFF_AND_VERIFY, tag 0x18 (R110). -/
def execDestuffAndVerify (x : List Byte) (s : State) : Out :=
  whenRunning s (.next (s.returns (resultOf (destuffAndVerify s.profile x))))

end Sys2Proof.Machine
end

