-- ==== Sys2Proof/Machine/Message.lean ====
section
/-! DEFINITION. The message encoder and decoder, 41_message.md: its functions (rules R120 to R123), and the standalone
operations of group 2. -/

namespace Sys2Proof.Machine

/-- ENCODE(cmd, param) (R121). -/
def encodeMessage (P : Profile) (cmd : Byte) (param : List Byte) : Except ProtoError (List Byte) :=
  if 1 + param.length + P.chkW > P.maxFrameSize then .error .commandTooLong else .ok (bodyOf cmd param)

/-- DECODE_CMD(raw) (R122): the first byte; `fault UnwrittenRead` for an empty operand. -/
def decodeCommand (raw : List Byte) : Except Fault Byte :=
  match raw with
  | [] => .error .unwrittenRead
  | b :: _ => .ok b

/-- DECODE_PARAM(raw, total_len) (R123): the view (off, len). It is computed from total_len alone. -/
def decodeParameter (P : Profile) (totalLen : Nat) : Except ProtoError (Nat × Nat) :=
  if totalLen < P.minFrame then .error .incorrectParamSize else .ok (1, totalLen - 1 - P.chkW)

/-- The frame that STUFF_AND_CHECKSUM(ENCODE(cmd, param)) gives, or the first error (60_exceptions.md R186). -/
def frameOf (P : Profile) (cmd : Byte) (param : List Byte) : Except ProtoError (List Byte) :=
  match encodeMessage P cmd param with
  | .error e => .error e
  | .ok body => stuffAndChecksum P body

/-! ## The standalone operations (30_encoding.md R81, group 2) -/

/-- ENCODE, tag 0x20 (R121). -/
def execEncode (cmd : Byte) (param : List Byte) (s : State) : Out :=
  whenRunning s (.next (s.returns (resultOf (encodeMessage s.profile cmd param))))

/-- DECODE_CMD, tag 0x21 (R122). -/
def execDecodeCmd (raw : List Byte) (s : State) : Out :=
  whenRunning s (.next (match decodeCommand raw with | .ok b => s.returns (.byte b) | .error f => s.fail f))

/-- DECODE_PARAM, tag 0x22 (R123). `raw` is the list the view is of; its bytes do not matter to (off, len). -/
def execDecodeParam (_raw : List Byte) (totalLen : Nat) (s : State) : Out :=
  whenRunning s (.next (s.returns
    (match decodeParameter s.profile totalLen with | .ok v => .view v.1 v.2 | .error e => .error e)))

end Sys2Proof.Machine
end

