-- ==== Sys2Proof/Machine/Receive.lean ====
section
/-! DEFINITION. The receive engine and the handler interface, 42_receive.md (operations 0x30 to 0x36). -/

namespace Sys2Proof.Machine

/-- RX_SEEK(b), tag 0x30 (R131). -/
def execRxSeek (b : Byte) (s : State) : Out :=
  whenEnabled (rxSeekGuard s) s
    (.next (if delimClass s.profile b = .start then { s with rxCnt := 0, rxState := .accum } else s))

/-- RX_ACCUM(b), tag 0x31 (R132). -/
def execRxAccum (b : Byte) (s : State) : Out :=
  whenEnabled (rxAccumGuard s b) s
    (.next
      (match memWrite s.profile.rxbSize s.rxBuf s.rxCnt b with
      | .error f => s.fail f
      | .ok m => { s with rxBuf := m, rxCnt := s.rxCnt + 1 }))

/-- RX_OVERFLOW(b), tag 0x32 (R133). -/
def execRxOverflow (b : Byte) (s : State) : Out :=
  whenEnabled (rxOverflowGuard s b) s (.next (s.drop .frameTooLong))

/-- The part of RX_STOP after a valid frame (R134): the payload `raw` is stored in place (the memory `m`), and the
handler is called with its command id and parameter view. -/
def dispatch (s : State) (m : Memory) (raw : List Byte) : State :=
  match decodeCommand raw with
  | .error f => s.fail f
  | .ok cmd =>
    match decodeParameter s.profile raw.length with
    | .error e => s.drop e
    | .ok view => { s with rxBuf := m, dispCmd := cmd, dispLen := view.2, rxState := .dispatch }

/-- RX_STOP(b), tag 0x33 (R134): Validate, Destuff+Checksum and the start of Dispatch, in one step. -/
def execRxStop (b : Byte) (s : State) : Out :=
  whenEnabled (rxStopGuard s b) s
    (.next
      (match memReadList s.profile.rxbSize s.rxBuf 0 s.rxCnt with
      | .error f => s.fail f
      | .ok x =>
        match destuffAndVerify s.profile x with
        | .error e => s.drop e
        | .ok raw =>
          match memWriteList s.profile.rxbSize s.rxBuf 0 raw with
          | .error f => s.fail f
          | .ok m => dispatch s m raw))

/-- H_PARAM_READ(i), tag 0x34 (R137). -/
def execHParamRead (i : Nat) (s : State) : Out :=
  whenRunning s
    (.next
      (if s.rxState ≠ .dispatch then s.fail .paramViewExpired
      else if s.dispLen ≤ i then s.fail .paramViewOutOfRange
      else
        match memRead s.profile.rxbSize s.rxBuf (1 + i) with
        | .error f => s.fail f
        | .ok b => s.returns (.byte b)))

/-- The case -5 of H_RETURN (R138): count, and queue the "command rejected" reply as RXE's request. -/
def queueReply (s : State) : State :=
  { s with
    errCnt := s.errCnt + 1
    rejCmd := s.dispCmd
    rxe := { s.rxe with req := { cmd := s.profile.rejectCmd, param := [s.dispCmd] }, pst := .waiting }
    rxState := .reply }

/-- H_RETURN(v), tag 0x35 (R138): the handler's return and Error Mapping. -/
def execHReturn (v : Int) (s : State) : Out :=
  whenRunning s
    (.next
      (if s.rxState ≠ .dispatch then s.fail .returnWithoutCall
      else if v = ProtoError.unimplementedCommand.code then queueReply s
      else if v = ProtoError.noMemory.code ∨ v = ProtoError.stuffedFrameTooLong.code
          ∨ v = ProtoError.commandTooLong.code ∨ v = ProtoError.incorrectParamSize.code then
        { s.diag v with rxState := .seek }
      else { s with rxState := .seek }))

/-- RX_REPLY_END, tag 0x36 (R139). -/
def execRxReplyEnd (s : State) : Out :=
  whenEnabled (rxReplyEndGuard s) s
    (.next
      (match s.rxe.resp with
      | none => s
      | some v =>
        { s with
          diagHist := if v < 0 then s.diagHist ++ [v] else s.diagHist
          rxe := { s.rxe with resp := none }
          rxState := .seek }))

end Sys2Proof.Machine
end

