-- ==== Sys2Proof/Machine/Transmit.lean ====
section
/-! DEFINITION. The transmit engine and its arbiter, 43_transmit.md (operations 0x40 to 0x45). -/

namespace Sys2Proof.Machine

/-- SEND_REQ(p, cmd, param), tag 0x40 (R151). -/
def execSendReq (p : Nat) (cmd : Byte) (param : List Byte) (s : State) : Out :=
  whenRunning s
    (.next
      (if s.profile.numPorts ≤ p then s.refuse .badPort
      else if s.initDone = false then s.fail .sendBeforeInit
      else if (s.slot (.ext p)).pst ≠ .idle then s.fail .portBusy
      else s.setSlot (.ext p) { pst := .waiting, req := { cmd := cmd, param := param }, resp := none }))

/-- TX_GRANT(r), tag 0x41 (R152). The chosen requester is the operand. -/
def execTxGrant (r : Requester) (s : State) : Out :=
  whenEnabled (txGrantGuard s r) s
    (.next ({ s with lock := .owned r, txPhase := .build }.setSlot r { s.slot r with pst := .active }))

/-- TX_BUILD, tag 0x42 (R153), for the lock holder `r`. -/
def buildFor (s : State) (r : Requester) : State :=
  match encodeMessage s.profile (s.slot r).req.cmd (s.slot r).req.param with
  | .error e => s.release r e.code
  | .ok body =>
    match stuffAndChecksum s.profile body with
    | .error e => s.release r e.code
    | .ok f =>
      match memWriteList s.profile.txbSize s.txBuf 0 f with
      | .error x => s.fail x
      | .ok m => { s with txBuf := m, txLen := f.length, txIdx := 0, txPhase := .emit }

/-- TX_BUILD, tag 0x42 (R153). -/
def execTxBuild (s : State) : Out :=
  whenEnabled (txBuildGuard s) s
    (.next (match s.holder with | none => s | some r => buildFor s r))

/-- TX_EMIT, tag 0x43 (R154). -/
def execTxEmit (s : State) : Out :=
  whenEnabled (txEmitGuard s) s
    (.next
      (match memRead s.profile.txbSize s.txBuf s.txIdx with
      | .error f => s.fail f
      | .ok b => { s.emit b with txIdx := s.txIdx + 1 }))

/-- TX_ABORT, tag 0x44 (R155). -/
def execTxAbort (s : State) : Out :=
  whenEnabled (txAbortGuard s) s
    (.next (match s.holder with | none => s | some r => s.release r ProtoError.channelWriteFailed.code))

/-- TX_COMPLETE, tag 0x45 (R156). The response is tx_len as an exact integer (R10; DEDUCED, log 15). -/
def execTxComplete (s : State) : Out :=
  whenEnabled (txCompleteGuard s) s
    (.next (match s.holder with | none => s | some r => s.release r (s.txLen : Int)))

end Sys2Proof.Machine
end

