-- ==== Sys2Proof/Machine/Dispatch.lean ====
section
/-! DEFINITION. The dispatch of 30_encoding.md rule R81: one arm per operation. -/

namespace Sys2Proof.Machine

def exec (i : Instr) (s : State) : Host.Outcome State Fault Refusal :=
  match i with
  | .reset => Sys2Proof.Machine.execReset s
  | .init stackSize priority draw => Sys2Proof.Machine.execInit stackSize priority draw s
  | .statusRead => Sys2Proof.Machine.execStatusRead s
  | .delimClass b => Sys2Proof.Machine.execDelimClass b s
  | .chkGen body => Sys2Proof.Machine.execChkGen body s
  | .chkVerify raw => Sys2Proof.Machine.execChkVerify raw s
  | .stuffByte b => Sys2Proof.Machine.execStuffByte b s
  | .stuff x => Sys2Proof.Machine.execStuff x s
  | .destuff x => Sys2Proof.Machine.execDestuff x s
  | .delimWrap x => Sys2Proof.Machine.execDelimWrap x s
  | .stuffAndChecksum body => Sys2Proof.Machine.execStuffAndChecksum body s
  | .destuffAndVerify x => Sys2Proof.Machine.execDestuffAndVerify x s
  | .encode cmd param => Sys2Proof.Machine.execEncode cmd param s
  | .decodeCmd raw => Sys2Proof.Machine.execDecodeCmd raw s
  | .decodeParam raw totalLen => Sys2Proof.Machine.execDecodeParam raw totalLen s
  | .rxSeek b => Sys2Proof.Machine.execRxSeek b s
  | .rxAccum b => Sys2Proof.Machine.execRxAccum b s
  | .rxOverflow b => Sys2Proof.Machine.execRxOverflow b s
  | .rxStop b => Sys2Proof.Machine.execRxStop b s
  | .hParamRead k => Sys2Proof.Machine.execHParamRead k s
  | .hReturn v => Sys2Proof.Machine.execHReturn v s
  | .rxReplyEnd => Sys2Proof.Machine.execRxReplyEnd s
  | .sendReq p cmd param => Sys2Proof.Machine.execSendReq p cmd param s
  | .txGrant r => Sys2Proof.Machine.execTxGrant r s
  | .txBuild => Sys2Proof.Machine.execTxBuild s
  | .txEmit => Sys2Proof.Machine.execTxEmit s
  | .txAbort => Sys2Proof.Machine.execTxAbort s
  | .txComplete => Sys2Proof.Machine.execTxComplete s

end Sys2Proof.Machine
end

