-- ==== Sys2Proof/Machine/Schedule.lean ====
section
/-! DEFINITION. How an operation comes to be taken. The block has no program counter and fetches nothing (10_state.md
R37): the environment's operations stand in `State.script`, the interleaving in force (00_scope.md R14, 20_memory.md R60;
DESIGN CHOICE, log 5). -/

namespace Sys2Proof.Machine

/-- The state with the first word of the script taken. -/
def State.consume (s : State) : State := { s with script := s.script.tail }

/-- A step was taken: the run's first step is over (70_reset_and_hazards.md R200; log 9). -/
def retire (o : Out) : Out :=
  match o with
  | .next t => .next { t with launched := true }
  | .fault f => .fault f
  | .refused r => .refused r

/-- The operation `i` at the head of the script: if its guard holds it is taken and leaves the script; otherwise its
agent waits, and the operation stays (R14, R197; log 6). -/
def takeOperation (i : Instr) (s : State) : Out :=
  if guardOf i s then retire (exec i s.consume) else exec i s

/-- A word with a reserved tag at the head of the script: the model records `refuse ReservedOp` (30_encoding.md R82). -/
def takeReserved (s : State) : Out :=
  whenRunning s (retire (.next (s.consume.refuse .reservedOp)))

/-- The next step of the run. With an empty script no agent moves: the state stays as it is (log 5). -/
def takeNext (s : State) : Out :=
  match s.script with
  | [] => whenRunning s (.next s)
  | w :: _ =>
    match decode w with
    | .ok i => takeOperation i s
    | .error _ => takeReserved s

/-- The state in which the word `w` is the next one offered. -/
def State.offer (s : State) (w : OpWord) : State := { s with script := w :: s.script }

end Sys2Proof.Machine
end

