-- ==== Sys2Proof/Machine/Transcript.lean ====
section
/-! DEFINITION. The transcript syntax of 30_encoding.md rule R83: its lines, the operation each names (for the byte event,
the one rule R81 selects), and the pseudo-operations. -/

namespace Sys2Proof.Machine

/-- A transcript line (R83). -/
inductive Line where
  | reset
  | init (stackSize priority : Nat) (draw : InitDraw)
  | status
  | send (k : Nat) (cmd : Byte) (param : List Byte)
  | grant (r : Requester)
  | build
  | emit
  | abort
  | complete
  | rx (b : Byte)
  | pread (i : Nat)
  | ret (v : Int)
  | replyend
deriving DecidableEq, Repr

/-- The operation a line names in a state. `rx b` is the byte event, for which R81 selects the operation; while RXE takes
no byte there is none (R40, R130). -/
def Line.operation (l : Line) (s : State) : Option Instr :=
  match l with
  | .reset => some .reset
  | .init stackSize priority draw => some (.init stackSize priority draw)
  | .status => some .statusRead
  | .send k cmd param => some (.sendReq k cmd param)
  | .grant r => some (.txGrant r)
  | .build => some .txBuild
  | .emit => some .txEmit
  | .abort => some .txAbort
  | .complete => some .txComplete
  | .rx b => rxSelect s b
  | .pread i => some (.hParamRead i)
  | .ret v => some (.hReturn v)
  | .replyend => some .rxReplyEnd

/-- `rxframe [b0 ... bk]` (R83). -/
def rxframe (x : List Byte) : List Line := x.map .rx

/-- `rxmsg <cmd>, [<param>]` (R83): none where no frame is built. -/
def rxmsg (P : Profile) (cmd : Byte) (param : List Byte) : Option (List Line) :=
  match frameOf P cmd param with
  | .ok f => some (rxframe f)
  | .error _ => none

/-- The lines of `xmit <r>` for a frame of length `n` (R83). -/
def xmitLines (r : Requester) (n : Nat) : List Line :=
  [.grant r, .build] ++ List.replicate n .emit ++ [.complete]

/-- `xmit <r>` (R83), in the state where its lines begin, for the request that `r` holds there. R83 defines it only when
TX_BUILD succeeds, so it is none where the grant is not enabled (a mark is set, the lock is held, or `r` is no waiting
requester of REQ, whatever its stored request) and where no frame is built (DEDUCED, log 26). -/
def xmit (s : State) (r : Requester) : Option (List Line) :=
  if s.running && txGrantGuard s r then
    match frameOf s.profile (s.slot r).req.cmd (s.slot r).req.param with
    | .ok f => some (xmitLines r f.length)
    | .error _ => none
  else none

/-- `sendx p<k>, <cmd>, [<param>]` (R83): the `send` line, then `xmit p<k>` in the state the send leaves. It is none
where that `xmit` is: where the send is misused (R151) or not taken, the lock is held, or no frame is built (DEDUCED,
log 26). -/
def sendx (s : State) (k : Nat) (cmd : Byte) (param : List Byte) : Option (List Line) :=
  match exec (.sendReq k cmd param) s with
  | .next t => (xmit t (.ext k)).map (.send k cmd param :: ·)
  | .fault _ => none
  | .refused _ => none

/-- The operation a line names, where it is enabled: none for an `rx` line while RXE takes no byte, and none where the
operation's guard is false (R14, R130). -/
def Line.enabled (l : Line) (s : State) : Option Instr := (l.operation s).filter (guardOf · s)

/-- One line. Where its operation is enabled, that is offered and taken. Otherwise the line waits: the state is unchanged
and nothing enters the script (DESIGN CHOICE, log 24). -/
def runLine (l : Line) (s : State) : Out :=
  match l.enabled s with
  | some i => step (s.offer (encode i))
  | none => whenRunning s (.next s)

/-- A transcript, line after line: the lines not taken, and the outcome. The run ends where the lines do, at the first
stop, and at the first line that is not enabled. That line waits and every later line waits behind it, since a transcript
is one interleaving, so a byte that RXE cannot take stays with CHIN and comes before the bytes offered after it (R40,
R217). Whether a transcript may hold such a line, and what then becomes of the later ones, the spec leaves open: DESIGN
CHOICE, log 24. -/
def runLines (ls : List Line) (s : State) : List Line × Out :=
  match ls with
  | [] => ([], .next s)
  | l :: rest =>
    match l.enabled s with
    | none => (l :: rest, runLine l s)
    | some _ =>
      match runLine l s with
      | .next t => runLines rest t
      | .fault f => (l :: rest, .fault f)
      | .refused r => (l :: rest, .refused r)

end Sys2Proof.Machine
end

