-- ==== Sys2Proof/Safety.lean ====
section
/-! DEFINITION. What counts as a good state: no mark (60_exceptions.md R184), quiescence (70_reset_and_hazards.md R216), and
the invariants of 10_state.md rule R35. -/

namespace Sys2Proof.Machine

/-- The word offers a byte on CH_IN: a receive operation 0x30 to 0x33 (30_encoding.md R81). -/
def offersByte (w : OpWord) : Bool := decide (0x30 ≤ w.tag.toNat ∧ w.tag.toNat ≤ 0x33)

/-- A quiescent state (R216), (a) to (d). CHIN's pending bytes are no state of the block (R40), and the spec does not say
when a byte of a script counts as offered; here (d), "CHIN offers no byte", means that no word anywhere in the remaining
script is a receive operation, at its head or behind it (DESIGN CHOICE, log 25). Nothing is said of what the peer
received, of bytes beyond the script, of a partial frame in ACCUM, or of the handler. -/
def State.quiescent (s : State) : Bool :=
  s.running
    && decide (s.txPhase = .idle) && decide (s.lock = .free)
    && (requesters s.profile).all (fun r => decide ((s.slot r).pst = .idle))
    && (decide (s.rxState = .disabled) || decide (s.rxState = .seek) || decide (s.rxState = .accum))
    && s.script.all (fun w => !offersByte w)

/-- Every cell below `n` is written. -/
def Memory.filled (m : Memory) (n : Nat) : Prop := ∀ i, i < n → (m.read i).isSome = true

/-- The invariants (I1) to (I6) of R35, with what makes them inductive: the profile is well formed (R201), the buffers
are canonical and inside their spaces (R50), every port has its elements (R30), a set response of RXE goes with an IDLE
pst (R30 `respond`), the frame being emitted is written and no shorter than the shortest frame (R153, R156), and the
parameter view is written (R134, R137). -/
structure State.Inv (s : State) : Prop where
  profileWf : s.profile.wf = true
  rxCanonical : s.rxBuf.wf = true ∧ s.rxBuf.within s.profile.rxbSize = true
  txCanonical : s.txBuf.wf = true ∧ s.txBuf.within s.profile.txbSize = true
  portCount : s.ports.length = s.profile.numPorts
  /-- (I1) -/
  lockPhase : s.lock = .free ↔ s.txPhase = .idle
  /-- (I2) -/
  lockActive : ∀ r, (s.slot r).pst = .active ↔ s.lock = .owned r
  /-- (I3) -/
  replyPending : ((s.slot .rxe).pst ≠ .idle ∨ (s.slot .rxe).resp.isSome = true) ↔ s.rxState = .reply
  replyAnswered : (s.slot .rxe).resp.isSome = true → (s.slot .rxe).pst = .idle
  /-- (I4) -/
  rxCntBound : s.rxCnt ≤ s.profile.maxFrameSize
  rxFilled : s.rxState = .accum → s.rxBuf.filled s.rxCnt
  /-- (I5) -/
  txBounds : s.txPhase = .emit → s.txIdx ≤ s.txLen ∧ s.txLen ≤ s.profile.txbSize
  txFrame : s.txPhase = .emit → s.profile.minFrame + 2 ≤ s.txLen ∧ s.txBuf.filled s.txLen
  /-- (I6) -/
  beforeInit : s.initDone = false → s.rxState = .disabled ∧ ∀ r, (s.slot r).pst = .idle
  viewFilled : s.rxState = .dispatch →
    1 + s.dispLen + s.profile.chkW ≤ s.profile.maxFrameSize ∧ s.rxBuf.filled (1 + s.dispLen)

/-- What `release(r, v)` leaves (43_transmit.md R157): the lock is FREE, the phase IDLE, r's pst IDLE and its response v;
r's request, every other requester and every other element are as before. -/
def Released (s t : State) (r : Requester) (v : Int) : Prop :=
  t = { s with lock := .free, txPhase := .idle, ports := t.ports, rxe := t.rxe }
    ∧ t.slot r = { s.slot r with resp := some v, pst := .idle }
    ∧ ∀ q, q ≠ r → t.slot q = s.slot q

/-- The requester `r` holds the lock and its frame `f` is being emitted: what out_hist held at the grant is `base`, and
the first tx_idx bytes of `f` follow it (43_transmit.md R153, R154, R159). -/
structure Emitting (s : State) (r : Requester) (base f : List Byte) : Prop where
  lock : s.lock = .owned r
  phase : s.txPhase = .emit
  length : s.txLen = f.length
  progress : s.txIdx ≤ f.length
  buffer : ∀ i, i < f.length → s.txBuf.read i = f[i]?
  emitted : s.outHist = base ++ f.take s.txIdx

/-- `s` and `t` agree on the receive side: the profile, the receive engine's elements, the counter, the diagnostics,
the marks and the value last returned. -/
def SameReceiveSide (s t : State) : Prop :=
  s.profile = t.profile ∧ s.rxState = t.rxState ∧ s.rxBuf = t.rxBuf ∧ s.rxCnt = t.rxCnt
    ∧ s.dispCmd = t.dispCmd ∧ s.dispLen = t.dispLen ∧ s.rejCmd = t.rejCmd
    ∧ s.errCnt = t.errCnt ∧ s.diagHist = t.diagHist
    ∧ s.fault = t.fault ∧ s.refused = t.refused ∧ s.ret = t.ret

/-- `s` and `t` agree on the transmit side: the profile, init_done, the lock, the requesters, the transmit engine's
elements, the bytes emitted and the marks. -/
def SameTransmitSide (s t : State) : Prop :=
  s.profile = t.profile ∧ s.initDone = t.initDone ∧ s.lock = t.lock ∧ s.ports = t.ports ∧ s.rxe = t.rxe
    ∧ s.txPhase = t.txPhase ∧ s.txBuf = t.txBuf ∧ s.txLen = t.txLen ∧ s.txIdx = t.txIdx
    ∧ s.outHist = t.outHist ∧ s.fault = t.fault ∧ s.refused = t.refused

end Sys2Proof.Machine
end

