-- ==== Sys2Proof/Certificates/Slice0/Obligations.lean ====
section
/-! DEFINITION. The statements for the provers, from the numbered rules of spec/.

Throughout, `s.running` says that no mark is set (60_exceptions.md R184), and a conclusion `exec i s = .next t` says that
the operation is taken and completes. `{ s with f := v }` says that the element `f` becomes `v` and every other element
of the state keeps its value. -/

open Sys2Proof Sys2Proof.Machine

/-! ## The frame codec (40_codec.md) -/

/-- R111: no delimiter stands bare in a stuffed body, and every ESC in it is followed by an escape code. -/
def Obligations.StuffedBodyHasNoBareDelimiter : Prop :=
  ∀ (P : Profile) (x : List Byte), P.wf = true →
    (∀ b ∈ stuff P x, b ≠ P.start ∧ b ≠ P.stop)
      ∧ ∀ before after, stuff P x = before ++ P.esc :: after → ∃ y rest, after = y :: rest ∧ y ∈ P.eimg

/-- R112: destuffing undoes stuffing; and for every body (a command id and its parameter, R72) that fits, stripping the
delimiters of the built frame and applying DESTUFF_AND_VERIFY gives the raw payload back. -/
def Obligations.DestuffInvertsStuff : Prop :=
  ∀ P : Profile, P.wf = true →
    (∀ x, destuff P (stuff P x) = some x)
      ∧ ∀ (cmd : Byte) (param : List Byte),
        (stuff P (cmd :: param ++ P.checksum (cmd :: param))).length ≤ P.maxFrameSize →
          ∃ sb, stuffAndChecksum P (cmd :: param) = .ok ([P.start] ++ sb ++ [P.stop])
            ∧ destuffAndVerify P sb = .ok (cmd :: param ++ P.checksum (cmd :: param))

/-- R113: the length bounds of stuffing, when they are reached, and the bounds of a successful destuffing. -/
def Obligations.StuffedLengthBounds : Prop :=
  ∀ (P : Profile),
    (∀ x, x.length ≤ (stuff P x).length ∧ (stuff P x).length ≤ 2 * x.length
      ∧ ((stuff P x).length = 2 * x.length ↔ ∀ b ∈ x, b ∈ P.rsv)
      ∧ ((stuff P x).length = x.length ↔ ∀ b ∈ x, b ∉ P.rsv))
    ∧ ∀ s raw, destuff P s = some raw → (s.length + 1) / 2 ≤ raw.length ∧ raw.length ≤ s.length

/-- R75 with R107: under WF(P), DESTUFF accepts exactly the stuffed forms, and gives the list each is the form of. -/
def Obligations.DestuffAcceptsExactlyStuffedBodies : Prop :=
  ∀ (P : Profile) (s x : List Byte), P.wf = true → (destuff P s = some x ↔ s = stuff P x)

/-- R75 with R208: a stuffed body that holds a START or a STOP anywhere is malformed, so a frame that ran into the next
one is never accepted: DESTUFF_AND_VERIFY reports BadChecksum for every such body of at least MIN_FRAME bytes. -/
def Obligations.DelimiterInsideBodyIsRejected : Prop :=
  ∀ (P : Profile) (s : List Byte), P.wf = true → (P.start ∈ s ∨ P.stop ∈ s) →
    destuff P s = none ∧ (P.minFrame ≤ s.length → destuffAndVerify P s = .error .badChecksum)

/-- R114, the part that holds exactly under P0: a single-bit change of any byte of a raw payload whose checksum matches,
a checksum byte included, makes the verifier reject it. -/
def Obligations.SumCheckDetectsSingleBitFlip : Prop :=
  ∀ (raw : List Byte) (i k : Nat) (h : i < raw.length), k < 8 → chkVerify Profile.p0 raw = true →
    chkVerify Profile.p0 (raw.set i (raw[i] ^^^ BitVec.twoPow 8 k)) = false

/-- R74: the stuffing code under P0, with the class of every byte. -/
def Obligations.DefaultStuffingTable : Prop :=
  ∀ b : Byte,
    stuffByte Profile.p0 b
        = (if b = 0x02 then [0x10, 0x22] else if b = 0x03 then [0x10, 0x23] else if b = 0x10 then [0x10, 0x30] else [b])
      ∧ delimClass Profile.p0 b
        = (if b = 0x02 then .start else if b = 0x03 then .stop else if b = 0x10 then .esc else .data)

/-- R101, R102, R104, R105, R106 and R108: six standalone codec operations complete in every unmarked state, return the value
the rule gives, and change nothing else. R103: where CHK is SUM8, CHK_GEN returns the one byte that is the sum of the
body's bytes mod 256. R102: under WF(P) CHK_GEN returns exactly CHK_W bytes, whatever CHK is. -/
def Obligations.CodecOperationsReturn : Prop :=
  ∀ s : State, s.running = true →
    (∀ b, exec (.delimClass b) s
        = .next { s with ret := some (.delim (if b = s.profile.start then .start else if b = s.profile.stop then .stop
            else if b = s.profile.esc then .esc else .data)) })
    ∧ (∀ body, exec (.chkGen body) s = .next { s with ret := some (.bytes (s.profile.checksum body)) })
    ∧ (∀ body, s.profile.chk = .sum8 →
        exec (.chkGen body) s
          = .next { s with ret := some (.bytes [BitVec.ofNat 8 ((body.map (fun b => b.toNat)).sum % 256)]) })
    ∧ (∀ body, s.profile.wf = true →
        ∃ c, c.length = s.profile.chkW ∧ exec (.chkGen body) s = .next { s with ret := some (.bytes c) })
    ∧ (∀ raw, exec (.chkVerify raw) s
        = .next { s with ret := some (.bool (decide (s.profile.minFrame ≤ raw.length
            ∧ s.profile.checksum (raw.take (raw.length - s.profile.chkW)) = raw.drop (raw.length - s.profile.chkW)))) })
    ∧ (∀ b, exec (.stuffByte b) s
        = .next { s with ret := some (.bytes (if b = s.profile.start then [s.profile.esc, s.profile.escStart]
            else if b = s.profile.stop then [s.profile.esc, s.profile.escStop]
            else if b = s.profile.esc then [s.profile.esc, s.profile.escEsc] else [b])) })
    ∧ (∀ x, exec (.stuff x) s = .next { s with ret := some (.bytes (x.flatMap (stuffByte s.profile))) })
    ∧ (∀ x, exec (.delimWrap x) s
        = .next { s with ret := some (.bytes (s.profile.start :: x ++ [s.profile.stop])) })

/-- R107: the standalone DESTUFF returns the list whose stuffed form it was given, and Malformed for every other list. -/
def Obligations.DestuffOperationReturns : Prop :=
  ∀ s : State, s.running = true → s.profile.wf = true →
    (∀ x, exec (.destuff (stuff s.profile x)) s = .next { s with ret := some (.bytes x) })
      ∧ ∀ y, (∀ x, y ≠ stuff s.profile x) → exec (.destuff y) s = .next { s with ret := some .malformed }

/-- R109 and R110: the standalone STUFF_AND_CHECKSUM and DESTUFF_AND_VERIFY complete in every unmarked state, with the outcomes
of their rules in the order the rules check them. -/
def Obligations.FrameOperationsReturn : Prop :=
  ∀ s : State, s.running = true →
    (∀ body, exec (.stuffAndChecksum body) s
        = .next { s with ret := some (if s.profile.maxFrameSize < (stuff s.profile (body ++ s.profile.checksum body)).length
            then .error .stuffedFrameTooLong
            else .bytes (s.profile.start :: stuff s.profile (body ++ s.profile.checksum body) ++ [s.profile.stop])) })
    ∧ (∀ x, x.length < s.profile.minFrame →
        exec (.destuffAndVerify x) s = .next { s with ret := some (.error .badSize) })
    ∧ (∀ x, s.profile.minFrame ≤ x.length → destuff s.profile x = none →
        exec (.destuffAndVerify x) s = .next { s with ret := some (.error .badChecksum) })
    ∧ (∀ x raw, s.profile.minFrame ≤ x.length → destuff s.profile x = some raw → raw.length < s.profile.minFrame →
        exec (.destuffAndVerify x) s = .next { s with ret := some (.error .badSize) })
    ∧ (∀ x raw, s.profile.minFrame ≤ x.length → destuff s.profile x = some raw → s.profile.minFrame ≤ raw.length →
        exec (.destuffAndVerify x) s
          = .next { s with ret := some (if s.profile.checksum (raw.take (raw.length - s.profile.chkW))
                = raw.drop (raw.length - s.profile.chkW) then .bytes raw else .error .badChecksum) })

/-! ## The message codec (41_message.md) -/

/-- R121 to R123: the message operations complete in every unmarked state, ENCODE and DECODE_PARAM with the outcomes of
their rules, DECODE_CMD with the first byte of a payload that has one; for an empty operand it records
`fault UnwrittenRead`. (R123's operand line has total_len = len(raw). That DECODE_PARAM's clause holds for every
total_len, also one that is not the length of raw, is the model's choice: log 18.) -/
def Obligations.MessageOperationsReturn : Prop :=
  ∀ s : State, s.running = true →
    (∀ cmd param, exec (.encode cmd param) s
        = .next { s with ret := some (if s.profile.maxFrameSize < 1 + param.length + s.profile.chkW
            then .error .commandTooLong else .bytes (cmd :: param)) })
    ∧ (∀ b rest, exec (.decodeCmd (b :: rest)) s = .next { s with ret := some (.byte b) })
    ∧ exec (.decodeCmd []) s = .next { s with fault := some .unwrittenRead }
    ∧ (∀ raw totalLen, exec (.decodeParam raw totalLen) s
        = .next { s with ret := some (if totalLen < 1 + s.profile.chkW then .error .incorrectParamSize
            else .view 1 (totalLen - 1 - s.profile.chkW)) })

/-- R124: the message round trip through the wire frame. -/
def Obligations.MessageRoundTrip : Prop :=
  ∀ (P : Profile) (cmd : Byte) (param body f : List Byte), P.wf = true →
    encodeMessage P cmd param = .ok body → stuffAndChecksum P body = .ok f →
      ∃ raw, destuffAndVerify P ((f.take (f.length - 1)).drop 1) = .ok raw
        ∧ decodeCommand raw = .ok cmd
        ∧ ∃ off len, decodeParameter P raw.length = .ok (off, len) ∧ viewOf raw off len = param

/-- R125: the capacity boundary, at ENCODE, at STUFF_AND_CHECKSUM, and at TX_BUILD on the machine. -/
def Obligations.CapacityBoundary : Prop :=
  ∀ (P : Profile) (cmd : Byte) (param : List Byte), P.wf = true →
    (param.length = P.maxParam + 1 → encodeMessage P cmd param = .error .commandTooLong)
    ∧ (param.length = P.maxParam →
        encodeMessage P cmd param = .ok (cmd :: param)
        ∧ ((∃ f, stuffAndChecksum P (cmd :: param) = .ok f)
            ↔ ∀ b ∈ cmd :: param ++ P.checksum (cmd :: param), b ∉ P.rsv)
        ∧ ((¬ ∀ b ∈ cmd :: param ++ P.checksum (cmd :: param), b ∉ P.rsv) →
            stuffAndChecksum P (cmd :: param) = .error .stuffedFrameTooLong))
    ∧ ∀ (s : State) (r : Requester), s.running = true → s.profile = P → s.txPhase = .build → s.lock = .owned r →
        (s.slot r).req = { cmd := cmd, param := param } →
        ((∃ t, exec .txBuild s = .next t ∧ t.txPhase = .emit)
          ↔ param.length ≤ P.maxParam
            ∧ (stuff P (cmd :: param ++ P.checksum (cmd :: param))).length ≤ P.maxFrameSize)

/-- R210: a parameter whose doubled raw payload fits is always built, whatever its bytes. -/
def Obligations.ShortParameterAlwaysBuilds : Prop :=
  ∀ (s : State) (r : Requester), s.running = true → s.profile.wf = true → s.txPhase = .build → s.lock = .owned r →
    2 * ((s.slot r).req.param.length + 1 + s.profile.chkW) ≤ s.profile.maxFrameSize →
      ∃ t, exec .txBuild s = .next t ∧ t.txPhase = .emit ∧ t.lock = .owned r

/-! ## Control (44_control.md, 70_reset_and_hazards.md) -/

/-- The table of 10_state.md section 5 holds of the reset state. The profile P0, disp_cmd, disp_len, rej_cmd and req[r]
(logs 1 and 11) and the model's own fields (logs 5, 9, 12, 13) are the model's choice and are not stated. -/
def Obligations.ResetStateHasTheTabledValues : Prop :=
  State.reset.initDone = false ∧ State.reset.rxState = .disabled
    ∧ (∀ i, State.reset.rxBuf.read i = none) ∧ State.reset.rxCnt = 0 ∧ State.reset.errCnt = 0
    ∧ State.reset.lock = .free
    ∧ (∀ r, (State.reset.slot r).pst = .idle ∧ (State.reset.slot r).resp = none)
    ∧ State.reset.txPhase = .idle ∧ (∀ i, State.reset.txBuf.read i = none)
    ∧ State.reset.txLen = 0 ∧ State.reset.txIdx = 0
    ∧ State.reset.outHist = [] ∧ State.reset.diagHist = []
    ∧ State.reset.fault = none ∧ State.reset.refused = none

/-- R200 and R201 with R9: a profile is well formed exactly when the conditions (a) to (g) of R9 hold. RESET as the first
step of the run puts every element at its reset value when the profile is well formed, whatever they held, and keeps the
profile (R21); where any one of the seven conditions fails it is refused as BadProfile; anywhere else it is refused. ESCMAP
on the reserved bytes is the three bytes escStart, escStop and escEsc. Nothing is said of disp_cmd, disp_len, rej_cmd and req[r], which are unspecified. That "the first step" is the
field `launched` is the model's form (log 9). -/
def Obligations.ResetAppliesResetValues : Prop :=
  ∀ s : State,
    (s.profile.wf = true ↔
      (s.profile.start ≠ s.profile.stop ∧ s.profile.start ≠ s.profile.esc ∧ s.profile.stop ≠ s.profile.esc)
      ∧ (∀ c ∈ [s.profile.escStart, s.profile.escStop, s.profile.escEsc],
          c ≠ s.profile.start ∧ c ≠ s.profile.stop ∧ c ≠ s.profile.esc)
      ∧ (s.profile.escStart ≠ s.profile.escStop ∧ s.profile.escStart ≠ s.profile.escEsc
          ∧ s.profile.escStop ≠ s.profile.escEsc)
      ∧ (∀ x, (s.profile.checksum x).length = s.profile.chkW)
      ∧ 1 ≤ s.profile.chkW ∧ 1 + s.profile.chkW ≤ s.profile.maxFrameSize ∧ 1 ≤ s.profile.numPorts)
    ∧ (s.launched = false → s.profile.wf = true →
      ∃ t, exec .reset s = .next t
        ∧ t.profile = s.profile ∧ t.script = s.script ∧ t.launched = false
        ∧ t.initDone = false ∧ t.rxState = .disabled
        ∧ (∀ i, t.rxBuf.read i = none) ∧ t.rxCnt = 0 ∧ t.errCnt = 0 ∧ t.lock = .free
        ∧ (∀ r, (t.slot r).pst = .idle ∧ (t.slot r).resp = none) ∧ t.ports.length = s.profile.numPorts
        ∧ t.txPhase = .idle ∧ (∀ i, t.txBuf.read i = none) ∧ t.txLen = 0 ∧ t.txIdx = 0
        ∧ t.outHist = [] ∧ t.diagHist = [] ∧ t.fault = none ∧ t.refused = none)
    ∧ (s.launched = false → s.running = true →
        ((s.profile.start = s.profile.stop ∨ s.profile.start = s.profile.esc ∨ s.profile.stop = s.profile.esc)
          ∨ (∃ c ∈ [s.profile.escStart, s.profile.escStop, s.profile.escEsc],
              c = s.profile.start ∨ c = s.profile.stop ∨ c = s.profile.esc)
          ∨ (s.profile.escStart = s.profile.escStop ∨ s.profile.escStart = s.profile.escEsc
              ∨ s.profile.escStop = s.profile.escEsc)
          ∨ (∃ x, (s.profile.checksum x).length ≠ s.profile.chkW)
          ∨ s.profile.chkW = 0 ∨ s.profile.maxFrameSize < 1 + s.profile.chkW ∨ s.profile.numPorts = 0) →
        exec .reset s = .next { s with refused := some .badProfile })
    ∧ (s.launched = true → s.running = true →
        exec .reset s = .next { s with refused := some .resetWhileRunning })

/-- R170: INIT starts reception on the draw OK, changes nothing on the draw FAIL, and faults after a success. -/
def Obligations.InitStartsReception : Prop :=
  ∀ (s : State) (stackSize priority : Nat), s.running = true →
    (s.initDone = false →
      exec (.init stackSize priority .ok) s
          = .next { s with initDone := true, rxState := .seek, ret := some (.code 0) }
        ∧ exec (.init stackSize priority .fail) s = .next { s with ret := some (.code (-10)) })
    ∧ (s.initDone = true →
        ∀ draw, exec (.init stackSize priority draw) s = .next { s with fault := some .doubleInit })

/-- R172: STATUS_READ answers in every state, a marked one included, and has no side effect. -/
def Obligations.StatusReadReturnsTriple : Prop :=
  ∀ s : State, exec .statusRead s = .next { s with ret := some (.status s.errCnt s.rxState s.lock) }

/-! ## The receive engine and the handler (42_receive.md) -/

/-- R131: in SEEK, START opens a frame and every other byte is discarded. -/
def Obligations.SeekEntersAccumOnStart : Prop :=
  ∀ (s : State) (b : Byte), s.running = true → s.rxState = .seek →
    (b = s.profile.start → exec (.rxSeek b) s = .next { s with rxCnt := 0, rxState := .accum })
      ∧ (b ≠ s.profile.start → exec (.rxSeek b) s = .next s)

/-- R132: in ACCUM a byte other than STOP is stored at rx_cnt while there is room, START included. -/
def Obligations.AccumStoresByte : Prop :=
  ∀ (s : State) (b : Byte), s.running = true → s.rxState = .accum → b ≠ s.profile.stop →
    s.rxCnt < s.profile.maxFrameSize →
      ∃ t, exec (.rxAccum b) s = .next t
        ∧ t = { s with rxBuf := t.rxBuf, rxCnt := s.rxCnt + 1 }
        ∧ t.rxBuf.read s.rxCnt = some b
        ∧ ∀ a, a ≠ s.rxCnt → t.rxBuf.read a = s.rxBuf.read a

/-- R133 with R182: with a full buffer, a byte other than STOP drops the frame: counted, reported as -6, back to SEEK. -/
def Obligations.OverflowDropsFrame : Prop :=
  ∀ (s : State) (b : Byte), s.running = true → s.rxState = .accum → b ≠ s.profile.stop →
    s.rxCnt = s.profile.maxFrameSize →
      exec (.rxOverflow b) s
        = .next { s with errCnt := s.errCnt + 1, diagHist := s.diagHist ++ [-6], rxState := .seek }

/-- R185 with R134 and R182: RX_STOP on the received body `x` reports exactly one error, in the order of R185, or
dispatches: it destuffs in place, leaves the cells beyond the payload, and opens the view of the parameter. -/
def Obligations.StopValidatesInOrder : Prop :=
  ∀ (s : State) (x : List Byte), s.running = true → s.rxState = .accum →
    s.rxCnt ≤ s.profile.maxFrameSize → x.length = s.rxCnt → (∀ i, i < x.length → s.rxBuf.read i = x[i]?) →
    (x.length < s.profile.minFrame →
      exec (.rxStop s.profile.stop) s
        = .next { s with errCnt := s.errCnt + 1, diagHist := s.diagHist ++ [-7], rxState := .seek })
    ∧ (s.profile.minFrame ≤ x.length → destuff s.profile x = none →
        exec (.rxStop s.profile.stop) s
          = .next { s with errCnt := s.errCnt + 1, diagHist := s.diagHist ++ [-8], rxState := .seek })
    ∧ (∀ raw, s.profile.minFrame ≤ x.length → destuff s.profile x = some raw → raw.length < s.profile.minFrame →
        exec (.rxStop s.profile.stop) s
          = .next { s with errCnt := s.errCnt + 1, diagHist := s.diagHist ++ [-7], rxState := .seek })
    ∧ (∀ raw, s.profile.minFrame ≤ x.length → destuff s.profile x = some raw → s.profile.minFrame ≤ raw.length →
        s.profile.checksum (raw.take (raw.length - s.profile.chkW)) ≠ raw.drop (raw.length - s.profile.chkW) →
        exec (.rxStop s.profile.stop) s
          = .next { s with errCnt := s.errCnt + 1, diagHist := s.diagHist ++ [-8], rxState := .seek })
    ∧ (∀ cmd rest, destuff s.profile x = some (cmd :: rest) → s.profile.minFrame ≤ (cmd :: rest).length →
        s.profile.checksum ((cmd :: rest).take ((cmd :: rest).length - s.profile.chkW))
          = (cmd :: rest).drop ((cmd :: rest).length - s.profile.chkW) →
        ∃ t, exec (.rxStop s.profile.stop) s = .next t
          ∧ t = { s with rxBuf := t.rxBuf, dispCmd := cmd, dispLen := (cmd :: rest).length - 1 - s.profile.chkW,
                         rxState := .dispatch }
          ∧ (∀ i, i < (cmd :: rest).length → t.rxBuf.read i = (cmd :: rest)[i]?)
          ∧ ∀ i, (cmd :: rest).length ≤ i → t.rxBuf.read i = s.rxBuf.read i)

/-- R137: during the call a read inside the view returns the parameter byte and changes nothing else; outside the call,
or past the view, it faults. -/
def Obligations.ParamReadReturnsViewByte : Prop :=
  ∀ (s : State) (i : Nat), s.running = true →
    (∀ b, s.rxState = .dispatch → i < s.dispLen → 1 + i < s.profile.maxFrameSize → s.rxBuf.read (1 + i) = some b →
      exec (.hParamRead i) s = .next { s with ret := some (.byte b) })
    ∧ (s.rxState ≠ .dispatch → exec (.hParamRead i) s = .next { s with fault := some .paramViewExpired })
    ∧ (s.rxState = .dispatch → s.dispLen ≤ i →
        exec (.hParamRead i) s = .next { s with fault := some .paramViewOutOfRange })

/-- R138: the handler's return and Error Mapping, every status. -/
def Obligations.HandlerReturnMapsStatus : Prop :=
  ∀ (s : State) (v : Int), s.running = true →
    (s.rxState = .dispatch →
      ((v = -1 ∨ v = -2 ∨ v = -3 ∨ v = -4) →
        exec (.hReturn v) s = .next { s with diagHist := s.diagHist ++ [v], rxState := .seek })
      ∧ (v = -5 →
          ∃ t, exec (.hReturn v) s = .next t
            ∧ t = { s with errCnt := s.errCnt + 1, rejCmd := s.dispCmd, rxState := .reply, rxe := t.rxe }
            ∧ (t.slot .rxe).pst = .waiting
            ∧ (t.slot .rxe).req = { cmd := s.profile.rejectCmd, param := [s.dispCmd] }
            ∧ (t.slot .rxe).resp = (s.slot .rxe).resp)
      ∧ ((v < -5 ∨ -1 < v) → exec (.hReturn v) s = .next { s with rxState := .seek }))
    ∧ (s.rxState ≠ .dispatch → exec (.hReturn v) s = .next { s with fault := some .returnWithoutCall })

/-- R139: the end of the reply: a negative result is reported, the response is consumed, and RXE returns to SEEK. -/
def Obligations.ReplyEndReturnsToSeek : Prop :=
  ∀ (s : State) (v : Int), s.running = true → s.rxState = .reply → (s.slot .rxe).resp = some v →
    ∃ t, exec .rxReplyEnd s = .next t
      ∧ t = { s with rxState := .seek, diagHist := (if v < 0 then s.diagHist ++ [v] else s.diagHist), rxe := t.rxe }
      ∧ t.slot .rxe = { s.slot .rxe with resp := none }

/-! ## The transmit engine and arbiter (43_transmit.md) -/

/-- R151: SEND_REQ on an idle port queues the message by value; its three misuses are marked, in the rule's order. -/
def Obligations.SendRequestQueuesMessage : Prop :=
  ∀ (s : State) (p : Nat) (cmd : Byte) (param : List Byte), s.running = true →
    (p < s.profile.numPorts → s.initDone = true → (s.slot (.ext p)).pst = .idle →
      s.ports.length = s.profile.numPorts →
        ∃ t, exec (.sendReq p cmd param) s = .next t
          ∧ t = { s with ports := t.ports }
          ∧ t.slot (.ext p) = { pst := .waiting, req := { cmd := cmd, param := param }, resp := none }
          ∧ ∀ q, q ≠ .ext p → t.slot q = s.slot q)
    ∧ (s.profile.numPorts ≤ p → exec (.sendReq p cmd param) s = .next { s with refused := some .badPort })
    ∧ (p < s.profile.numPorts → s.initDone = false →
        exec (.sendReq p cmd param) s = .next { s with fault := some .sendBeforeInit })
    ∧ (p < s.profile.numPorts → s.initDone = true → (s.slot (.ext p)).pst ≠ .idle →
        exec (.sendReq p cmd param) s = .next { s with fault := some .portBusy })

/-- R152: with the lock FREE, every waiting requester may be granted it: TX_GRANT completes for each choice. -/
def Obligations.GrantAcquiresLock : Prop :=
  ∀ (s : State) (r : Requester), s.running = true → s.lock = .free → inReq s.profile r = true →
    (s.slot r).pst = .waiting →
      ∃ t, exec (.txGrant r) s = .next t
        ∧ t = { s with lock := .owned r, txPhase := .build, ports := t.ports, rxe := t.rxe }
        ∧ t.slot r = { s.slot r with pst := .active }
        ∧ ∀ q, q ≠ r → t.slot q = s.slot q

/-- R153 with R186: TX_BUILD releases with -3 for a parameter that is too long, else with -2 for a stuffed body that is
too long, tx_buf and out_hist unchanged in both; else it stores the whole frame in TXB and enters EMIT. -/
def Obligations.BuildWritesFrame : Prop :=
  ∀ (s : State) (r : Requester) (cmd : Byte) (param : List Byte), s.running = true → s.txPhase = .build →
    s.lock = .owned r → (s.slot r).pst = .active → (s.slot r).req = { cmd := cmd, param := param } →
    (s.profile.maxFrameSize < 1 + param.length + s.profile.chkW →
      ∃ t, exec .txBuild s = .next t ∧ Released s t r (-3))
    ∧ (1 + param.length + s.profile.chkW ≤ s.profile.maxFrameSize →
        s.profile.maxFrameSize < (stuff s.profile (cmd :: param ++ s.profile.checksum (cmd :: param))).length →
        ∃ t, exec .txBuild s = .next t ∧ Released s t r (-2))
    ∧ (1 + param.length + s.profile.chkW ≤ s.profile.maxFrameSize →
        (stuff s.profile (cmd :: param ++ s.profile.checksum (cmd :: param))).length ≤ s.profile.maxFrameSize →
        ∃ t f, exec .txBuild s = .next t
          ∧ f = s.profile.start :: stuff s.profile (cmd :: param ++ s.profile.checksum (cmd :: param)) ++ [s.profile.stop]
          ∧ t = { s with txBuf := t.txBuf, txLen := f.length, txIdx := 0, txPhase := .emit }
          ∧ (∀ i, i < f.length → t.txBuf.read i = f[i]?)
          ∧ ∀ i, f.length ≤ i → t.txBuf.read i = s.txBuf.read i)

/-- R154: TX_EMIT passes the byte at tx_idx to the channel. -/
def Obligations.EmitSendsNextByte : Prop :=
  ∀ (s : State) (r : Requester) (b : Byte), s.running = true → s.txPhase = .emit → s.lock = .owned r →
    s.txIdx < s.txLen → s.txLen ≤ s.profile.txbSize → s.txBuf.read s.txIdx = some b →
      exec .txEmit s = .next { s with outHist := s.outHist ++ [b], txIdx := s.txIdx + 1 }

/-- R155 with R157: TX_ABORT releases with -9 while bytes remain; what was emitted stays. -/
def Obligations.AbortReleasesWithFailure : Prop :=
  ∀ (s : State) (r : Requester), s.running = true → s.txPhase = .emit → s.lock = .owned r → (s.slot r).pst = .active →
    s.txIdx < s.txLen →
      ∃ t, exec .txAbort s = .next t ∧ Released s t r (-9)

/-- R156 with R157: TX_COMPLETE releases with the frame's length when every byte is emitted; in a state that meets the
invariants of R35 that result is at least MIN_FRAME + 2 and at most TXB_SIZE, so never 0. -/
def Obligations.CompleteReleasesWithLength : Prop :=
  ∀ (s : State) (r : Requester), s.running = true → s.txPhase = .emit → s.lock = .owned r → (s.slot r).pst = .active →
    s.txIdx = s.txLen →
      (∃ t, exec .txComplete s = .next t ∧ Released s t r (s.txLen : Int))
        ∧ (s.Inv → s.profile.minFrame + 2 ≤ s.txLen ∧ s.txLen ≤ s.profile.txbSize)

/-! ## Frames: what an operation leaves unchanged -/

/-- R81 with R172 and R137: the codec and message operations, STATUS_READ and H_PARAM_READ write nothing: only the value
returned changes, or a fault is recorded; every cell of both buffers reads as before. -/
def Obligations.PureOperationsWriteNothing : Prop :=
  ∀ (i : Instr) (s t : State),
    (i.agent = .codec ∨ i.agent = .message ∨ i = .statusRead ∨ ∃ k, i = .hParamRead k) → exec i s = .next t →
      t = { s with ret := t.ret, fault := t.fault }
        ∧ ∀ a, t.rxBuf.read a = s.rxBuf.read a ∧ t.txBuf.read a = s.txBuf.read a

/-- R131 to R134: the frame of the four byte operations. RX_ACCUM stores to the cell rx_cnt alone; RX_STOP stores to the
cells of the payload it dispatches, and to none when it drops; none of them touches TXB. -/
def Obligations.ByteOperationsFrame : Prop :=
  ∀ (s t : State) (b : Byte),
    (exec (.rxSeek b) s = .next t →
      t = { s with rxCnt := t.rxCnt, rxState := t.rxState } ∧ ∀ a, t.rxBuf.read a = s.rxBuf.read a)
    ∧ (exec (.rxAccum b) s = .next t →
        t = { s with rxBuf := t.rxBuf, rxCnt := t.rxCnt } ∧ ∀ a, a ≠ s.rxCnt → t.rxBuf.read a = s.rxBuf.read a)
    ∧ (exec (.rxOverflow b) s = .next t →
        t = { s with errCnt := t.errCnt, diagHist := t.diagHist, rxState := t.rxState }
          ∧ ∀ a, t.rxBuf.read a = s.rxBuf.read a)
    ∧ (exec (.rxStop b) s = .next t →
        t = { s with rxBuf := t.rxBuf, dispCmd := t.dispCmd, dispLen := t.dispLen, rxState := t.rxState,
                     errCnt := t.errCnt, diagHist := t.diagHist, fault := t.fault }
          ∧ (∀ x raw, memReadList s.profile.rxbSize s.rxBuf 0 s.rxCnt = .ok x → destuffAndVerify s.profile x = .ok raw →
              ∀ a, raw.length ≤ a → t.rxBuf.read a = s.rxBuf.read a)
          ∧ (t.rxState ≠ .dispatch → ∀ a, t.rxBuf.read a = s.rxBuf.read a))

/-- R138 and R139: the frame of H_RETURN and RX_REPLY_END: no buffer, no external port, nothing of the transmit engine. -/
def Obligations.ReturnAndReplyFrame : Prop :=
  ∀ (s t : State) (v : Int),
    (exec (.hReturn v) s = .next t →
      t = { s with rxState := t.rxState, diagHist := t.diagHist, errCnt := t.errCnt, rejCmd := t.rejCmd,
                   rxe := t.rxe, fault := t.fault }
        ∧ ∀ a, t.rxBuf.read a = s.rxBuf.read a ∧ t.txBuf.read a = s.txBuf.read a)
    ∧ (exec .rxReplyEnd s = .next t →
        t = { s with rxState := t.rxState, diagHist := t.diagHist, rxe := t.rxe }
          ∧ ∀ a, t.rxBuf.read a = s.rxBuf.read a ∧ t.txBuf.read a = s.txBuf.read a)

/-- R151 to R157: the frame of the transmit operations. TX_BUILD stores to the cells of the frame it builds, and to none
when it fails; the other five store nothing; a requester other than the operation's keeps its elements. -/
def Obligations.TransmitOperationsFrame : Prop :=
  ∀ s t : State,
    (∀ p cmd param, exec (.sendReq p cmd param) s = .next t →
      t = { s with ports := t.ports, fault := t.fault, refused := t.refused }
        ∧ ∀ q, q ≠ .ext p → t.slot q = s.slot q)
    ∧ (∀ r, exec (.txGrant r) s = .next t →
        t = { s with lock := t.lock, txPhase := t.txPhase, ports := t.ports, rxe := t.rxe }
          ∧ (∀ q, q ≠ r → t.slot q = s.slot q)
          ∧ (t.slot r).req = (s.slot r).req ∧ (t.slot r).resp = (s.slot r).resp)
    ∧ (exec .txBuild s = .next t →
        t = { s with lock := t.lock, txPhase := t.txPhase, ports := t.ports, rxe := t.rxe, txBuf := t.txBuf,
                     txLen := t.txLen, txIdx := t.txIdx }
          ∧ (∀ q, s.lock ≠ .owned q → t.slot q = s.slot q)
          ∧ (∀ r f, s.lock = .owned r →
              frameOf s.profile (s.slot r).req.cmd (s.slot r).req.param = .ok f →
              ∀ a, f.length ≤ a → t.txBuf.read a = s.txBuf.read a)
          ∧ (t.txPhase ≠ .emit → ∀ a, t.txBuf.read a = s.txBuf.read a))
    ∧ (exec .txEmit s = .next t →
        t = { s with outHist := t.outHist, txIdx := t.txIdx, fault := t.fault })
    ∧ ((exec .txAbort s = .next t ∨ exec .txComplete s = .next t) →
        t = { s with lock := t.lock, txPhase := t.txPhase, ports := t.ports, rxe := t.rxe }
          ∧ ∀ q, s.lock ≠ .owned q → t.slot q = s.slot q)

/-- R170 and R200: the frame of INIT; and RESET keeps the configuration (R21). The buffers of INIT read as before. -/
def Obligations.ControlOperationsFrame : Prop :=
  ∀ s t : State,
    (∀ stackSize priority draw, exec (.init stackSize priority draw) s = .next t →
      t = { s with initDone := t.initDone, rxState := t.rxState, ret := t.ret, fault := t.fault }
        ∧ ∀ a, t.rxBuf.read a = s.rxBuf.read a ∧ t.txBuf.read a = s.txBuf.read a)
    ∧ (exec .reset s = .next t → t.profile = s.profile ∧ t.script = s.script ∧ t.launched = s.launched)

/-! ## Rules of the whole machine -/

/-- R21 with R66: no step changes the profile. -/
def Obligations.NoStepChangesProfile : Prop :=
  ∀ s t : State, step s = .next t → t.profile = s.profile

/-- R52 and R64: only RX_ACCUM and RX_STOP write RXB (RESET apart), and nothing but a launching RESET writes it in DISPATCH. -/
def Obligations.OnlyReceiveWritesRxBuf : Prop :=
  ∀ (i : Instr) (s t : State), i ≠ .reset → exec i s = .next t →
    ((∀ b, i ≠ .rxAccum b ∧ i ≠ .rxStop b) → t.rxBuf = s.rxBuf)
      ∧ (s.rxState = .dispatch → t.rxBuf = s.rxBuf)

/-- R53 with R57: only TX_BUILD writes TXB, and only for the lock holder; only TX_EMIT puts a byte on the channel, one
byte, which cannot be undone; and TX_EMIT acts only for the lock holder. -/
def Obligations.OnlyTransmitEngineWrites : Prop :=
  ∀ (i : Instr) (s t : State), i ≠ .reset → exec i s = .next t →
    (t.txBuf = s.txBuf ∨ (i = .txBuild ∧ ∃ r, s.lock = .owned r))
      ∧ (t.outHist = s.outHist ∨ (i = .txEmit ∧ (∃ r, s.lock = .owned r) ∧ ∃ b, t.outHist = s.outHist ++ [b]))

/-- R28 with R181: the counter moves only by one, and only for a dropped frame or an UnimplementedCommand return. -/
def Obligations.ErrorCounterEvents : Prop :=
  ∀ (i : Instr) (s t : State), i ≠ .reset → exec i s = .next t →
    t.errCnt = s.errCnt
      ∨ (t.errCnt = s.errCnt + 1 ∧
          ((∃ b, i = .rxOverflow b ∧ t.rxState = .seek) ∨ (∃ b, i = .rxStop b ∧ t.rxState = .seek)
            ∨ (i = .hReturn (-5) ∧ t.rxState = .reply)))

/-- R196 with R181: the diagnostic history takes one code per drop and one per local report, and nothing else. The first
clause says that nothing else adds a code. The four others say that each adds its code: a dropped overlong frame, a
frame dropped at STOP, a handler's local status, and a failed reply. -/
def Obligations.DiagnosticEvents : Prop :=
  ∀ (i : Instr) (s t : State), i ≠ .reset → exec i s = .next t →
    (t.diagHist = s.diagHist
      ∨ ∃ c, t.diagHist = s.diagHist ++ [c] ∧
          ((∃ b, i = .rxOverflow b ∧ c = -6) ∨ (∃ b, i = .rxStop b ∧ (c = -7 ∨ c = -8))
            ∨ (i = .hReturn c ∧ -4 ≤ c ∧ c ≤ -1) ∨ (i = .rxReplyEnd ∧ c < 0 ∧ (s.slot .rxe).resp = some c)))
    ∧ (∀ b, i = .rxOverflow b → s.rxState = .accum → b ≠ s.profile.stop → s.rxCnt = s.profile.maxFrameSize →
        t.diagHist = s.diagHist ++ [-6])
    ∧ (∀ b, i = .rxStop b → s.rxState = .accum → t.rxState = .seek →
        t.diagHist = s.diagHist ++ [-7] ∨ t.diagHist = s.diagHist ++ [-8])
    ∧ (∀ c, i = .hReturn c → s.rxState = .dispatch → -4 ≤ c → c ≤ -1 → t.diagHist = s.diagHist ++ [c])
    ∧ (∀ c, i = .rxReplyEnd → s.rxState = .reply → (s.slot .rxe).resp = some c → c < 0 →
        t.diagHist = s.diagHist ++ [c])

/-- R23 with R37: every transition of rx_state, with the operation that makes it. -/
def Obligations.ReceiveStageTransitions : Prop :=
  ∀ (i : Instr) (s t : State), exec i s = .next t → t.rxState ≠ s.rxState →
    (i = .reset ∧ t.rxState = .disabled)
      ∨ (∃ n p, i = .init n p .ok ∧ s.initDone = false ∧ t.rxState = .seek)
      ∨ (i = .rxSeek s.profile.start ∧ s.rxState = .seek ∧ t.rxState = .accum)
      ∨ (∃ b, i = .rxOverflow b ∧ s.rxState = .accum ∧ t.rxState = .seek)
      ∨ (i = .rxStop s.profile.stop ∧ s.rxState = .accum ∧ (t.rxState = .seek ∨ t.rxState = .dispatch))
      ∨ (∃ v, i = .hReturn v ∧ s.rxState = .dispatch
          ∧ ((v = -5 ∧ t.rxState = .reply) ∨ (v ≠ -5 ∧ t.rxState = .seek)))
      ∨ (i = .rxReplyEnd ∧ s.rxState = .reply ∧ t.rxState = .seek)

/-- R31, R29 and R63: every transition of tx_phase and of the lock, with the operation that makes it; in particular
the lock is taken only when FREE, and freed only by the release of its holder. -/
def Obligations.TransmitPhaseTransitions : Prop :=
  ∀ (i : Instr) (s t : State), i ≠ .reset → exec i s = .next t → (t.txPhase ≠ s.txPhase ∨ t.lock ≠ s.lock) →
    (∃ r, i = .txGrant r ∧ s.lock = .free ∧ (s.slot r).pst = .waiting ∧ t.lock = .owned r ∧ t.txPhase = .build)
      ∨ (i = .txBuild ∧ s.txPhase = .build ∧ (∃ r, s.lock = .owned r)
          ∧ ((t.txPhase = .emit ∧ t.lock = s.lock) ∨ (t.txPhase = .idle ∧ t.lock = .free)))
      ∨ ((i = .txAbort ∨ i = .txComplete) ∧ s.txPhase = .emit ∧ (∃ r, s.lock = .owned r)
          ∧ t.txPhase = .idle ∧ t.lock = .free)

/-- R184: while a mark is set no operation but STATUS_READ is taken, a launching RESET apart: exec and step stop with
the mark. (That they stop by its name, where the spec has no enabled step, is the model's form: log 7.) -/
def Obligations.MarksStopEverything : Prop :=
  ∀ s : State, s.launched = true →
    (∀ f, s.fault = some f →
      (∀ i, i ≠ .statusRead → exec i s = .fault f)
        ∧ ((∀ w, s.script.head? = some w → decode w ≠ .ok .statusRead) → step s = .fault f))
    ∧ (∀ r, s.fault = none → s.refused = some r →
        (∀ i, i ≠ .statusRead → exec i s = .refused r)
          ∧ ((∀ w, s.script.head? = some w → decode w ≠ .ok .statusRead) → step s = .refused r))

/-- R14 with R130, and the guards of R131 to R134, R139 and R152 to R156: an operation whose guard is false is not taken
and does not fail: the state is unchanged. (The wait as a next state is the model's form: log 6. That TX_EMIT, TX_ABORT
and TX_COMPLETE wait while the lock is FREE is the model's added guard, which R154 to R156 do not write: log 17.) -/
def Obligations.UnenabledOperationWaits : Prop :=
  ∀ s : State, s.running = true →
    (∀ b, s.rxState ≠ .seek → exec (.rxSeek b) s = .next s)
    ∧ (∀ b, (s.rxState ≠ .accum ∨ b = s.profile.stop ∨ s.profile.maxFrameSize ≤ s.rxCnt) →
        exec (.rxAccum b) s = .next s)
    ∧ (∀ b, (s.rxState ≠ .accum ∨ b = s.profile.stop ∨ s.rxCnt ≠ s.profile.maxFrameSize) →
        exec (.rxOverflow b) s = .next s)
    ∧ (∀ b, (s.rxState ≠ .accum ∨ b ≠ s.profile.stop) → exec (.rxStop b) s = .next s)
    ∧ ((s.rxState ≠ .reply ∨ (s.slot .rxe).resp = none) → exec .rxReplyEnd s = .next s)
    ∧ (∀ r, (s.lock ≠ .free ∨ inReq s.profile r = false ∨ (s.slot r).pst ≠ .waiting) → exec (.txGrant r) s = .next s)
    ∧ ((s.txPhase ≠ .build ∨ s.lock = .free) → exec .txBuild s = .next s)
    ∧ ((s.txPhase ≠ .emit ∨ s.txLen ≤ s.txIdx ∨ s.lock = .free) →
        exec .txEmit s = .next s ∧ exec .txAbort s = .next s)
    ∧ ((s.txPhase ≠ .emit ∨ s.txIdx ≠ s.txLen ∨ s.lock = .free) → exec .txComplete s = .next s)

/-- R81 with R130 and R140: exactly one receive operation applies to a byte taken in SEEK or ACCUM, the one the state and
the byte select; in DISABLED, DISPATCH and REPLY none does, so no byte is taken. -/
def Obligations.ExactlyOneReceiveOperation : Prop :=
  ∀ (s : State) (b : Byte), s.rxCnt ≤ s.profile.maxFrameSize →
    ((s.rxState = .seek ∨ s.rxState = .accum) →
      ∃ i, rxSelect s b = some i ∧
        ∀ j, (j = .rxSeek b ∨ j = .rxAccum b ∨ j = .rxOverflow b ∨ j = .rxStop b) → (guardOf j s = true ↔ j = i))
    ∧ ((s.rxState = .disabled ∨ s.rxState = .dispatch ∨ s.rxState = .reply) →
        rxSelect s b = none ∧
        ∀ j, (j = .rxSeek b ∨ j = .rxAccum b ∨ j = .rxOverflow b ∨ j = .rxStop b) → guardOf j s = false)

/-- R187: the two sides do not see each other. Two states that agree on the receive side still agree on it after the same
receive-side operation, whatever their transmit sides hold; and the other way round for the transmit operations. -/
def Obligations.SidesDoNotInterfere : Prop :=
  ∀ (i : Instr) (s t s' t' : State), exec i s = .next s' → exec i t = .next t' →
    ((∃ b, i = .rxSeek b ∨ i = .rxAccum b ∨ i = .rxOverflow b ∨ i = .rxStop b) ∨ (∃ k, i = .hParamRead k)
        ∨ (∃ v, i = .hReturn v) →
      SameReceiveSide s t → SameReceiveSide s' t')
    ∧ ((∃ p cmd param, i = .sendReq p cmd param) ∨ (∃ r, i = .txGrant r) ∨ i = .txBuild ∨ i = .txEmit ∨ i = .txAbort
        ∨ i = .txComplete →
      SameTransmitSide s t → SameTransmitSide s' t')

/-! ## Decoding and the step -/

/-- R80 and R81: tags written out bit by bit (group in bits 7 to 4, index in bits 3 to 0) decode to their operations. -/
def Obligations.TagsDecodeAsWritten : Prop :=
  decode { tag := 0b0000_0000 } = .ok .reset
    ∧ decode { tag := 0b0000_0001, nat := 512, nat2 := 3, draw := .fail } = .ok (.init 512 3 .fail)
    ∧ decode { tag := 0b0001_0101, bytes := [0x10, 0x22] } = .ok (.destuff [0x10, 0x22])
    ∧ decode { tag := 0b0010_0010, bytes := [0x05, 0x05], nat := 2 } = .ok (.decodeParam [0x05, 0x05] 2)
    ∧ decode { tag := 0b0011_0101, status := -5 } = .ok (.hReturn (-5))
    ∧ decode { tag := 0b0100_0001, requester := .rxe } = .ok (.txGrant .rxe)

/-- R82: every tag that R81 does not list is rejected by name, and the step that meets it records `refuse ReservedOp` and
changes nothing else of the block. -/
def Obligations.ReservedTagIsRefused : Prop :=
  ∀ (s : State) (w : OpWord) (rest : List OpWord), s.running = true → s.script = w :: rest →
    w.tag.toNat ∉ [0x00, 0x01, 0x02, 0x10, 0x11, 0x12, 0x13, 0x14, 0x15, 0x16, 0x17, 0x18, 0x20, 0x21, 0x22,
      0x30, 0x31, 0x32, 0x33, 0x34, 0x35, 0x36, 0x40, 0x41, 0x42, 0x43, 0x44, 0x45] →
      decode w = .error (.reservedOp w.tag)
        ∧ step s = .next { s with script := rest, launched := true, refused := some .reservedOp }

/-- R80 and R81, decoder and encoder agree. Decoding the word of an operation gives the operation back, with every operand
at every value. The other way round, encoding what a word decodes to gives that word's tag back, and each operand lane
either as the word has it or, where the operation reads no such operand, zero. (The lanes beside the tag are the model's
form of R80's "typed fields carried beside the tag": log 4.) -/
def Obligations.OperationWordsRoundTrip : Prop :=
  (∀ i : Instr, decode (encode i) = .ok i)
    ∧ ∀ (w : OpWord) (i : Instr), decode w = .ok i →
      (encode i).tag = w.tag
        ∧ ((encode i).byte = w.byte ∨ (encode i).byte = 0)
        ∧ ((encode i).bytes = w.bytes ∨ (encode i).bytes = [])
        ∧ ((encode i).nat = w.nat ∨ (encode i).nat = 0)
        ∧ ((encode i).nat2 = w.nat2 ∨ (encode i).nat2 = 0)
        ∧ ((encode i).status = w.status ∨ (encode i).status = 0)
        ∧ ((encode i).requester = w.requester ∨ (encode i).requester = .ext 0)
        ∧ ((encode i).draw = w.draw ∨ (encode i).draw = .ok)

/-- R14 with R83: when the head of the script decodes to an operation, the step is that operation, at the state with the
head taken, and the run is launched; where the guard is false the operation waits at the head. (The script is the
model's form: log 5; `launched` too: log 9. R14 says that an operation whose guard is false is not enabled and does not
fail; that the step then answers the same state, the operation staying at the head, is the model's choice: log 6.) -/
def Obligations.StepRunsDecodedOperation : Prop :=
  ∀ (s : State) (w : OpWord) (rest : List OpWord) (i : Instr), s.script = w :: rest → decode w = .ok i →
    (guardOf i s = true →
      (∀ t, exec i { s with script := rest } = .next t → step s = .next { t with launched := true })
      ∧ (∀ f, exec i { s with script := rest } = .fault f → step s = .fault f)
      ∧ (∀ r, exec i { s with script := rest } = .refused r → step s = .refused r))
    ∧ (guardOf i s = false → s.running = true → step s = .next s)

/-! ## Invariants -/

/-- The reset state meets the invariants of R35. -/
def Obligations.ResetMeetsInvariants : Prop := State.reset.Inv

/-- R35: every step keeps the invariants (I1) to (I6), from every state that meets them. -/
def Obligations.StepKeepsInvariants : Prop :=
  ∀ s t : State, s.Inv → step s = .next t → t.Inv

/-- R51: in a state that meets the invariants no rule issues an out-of-range index or reads an unwritten cell: a step
records neither of those two faults, but for the standalone DECODE_CMD of an empty list (R122). -/
def Obligations.BufferGuardsAreUnreachable : Prop :=
  ∀ s t : State, s.Inv → s.fault = none → step s = .next t →
    t.fault ≠ some .bufferIndexOutOfRange
      ∧ (t.fault = some .unwrittenRead → ∃ w, s.script.head? = some w ∧ decode w = .ok (.decodeCmd []))

/-- R158: in a state that meets the invariants at most one requester is ACTIVE, and it is the lock's holder; and the four
transmit steps act only for it: no other requester's elements change. -/
def Obligations.TransmitIsMutuallyExclusive : Prop :=
  ∀ s : State, s.Inv →
    (∀ r q, (s.slot r).pst = .active → (s.slot q).pst = .active → r = q ∧ s.lock = .owned r)
    ∧ ∀ i t, (i = .txBuild ∨ i = .txEmit ∨ i = .txAbort ∨ i = .txComplete) → exec i s = .next t →
        ∀ q, (s.slot q).pst ≠ .active → t.slot q = s.slot q

/-- R159: one grant's segment, from a state that meets the invariants. A TX_BUILD that reaches EMIT opens the segment of
the frame it built. While `r` emits the frame `f`, every operation of any agent, in any order, either keeps that (out_hist
is what it was at the grant, then a prefix of `f`), or is the release: TX_COMPLETE with the whole frame out and its length
answered, or TX_ABORT with a prefix out and -9 answered. No byte of another frame comes between. -/
def Obligations.GrantSegmentIsFramePrefix : Prop :=
  ∀ (i : Instr) (s t : State) (r : Requester), s.Inv → i ≠ .reset → exec i s = .next t →
    (i = .txBuild → s.txPhase = .build → s.lock = .owned r → t.txPhase = .emit →
      ∃ f, frameOf s.profile (s.slot r).req.cmd (s.slot r).req.param = .ok f ∧ Emitting t r s.outHist f)
    ∧ ∀ base f, Emitting s r base f →
        Emitting t r base f
        ∨ (i = .txComplete ∧ t.lock = .free ∧ t.outHist = base ++ f ∧ (t.slot r).resp = some (f.length : Int))
        ∨ (i = .txAbort ∧ t.lock = .free ∧ (∃ k, k < f.length ∧ t.outHist = base ++ f.take k)
            ∧ (t.slot r).resp = some (-9))

/-- R216: in a quiescent state no operation of the transmit engine, of the arbiter or of the reply is enabled. -/
def Obligations.QuiescentStateHasNoPendingWork : Prop :=
  ∀ s : State, s.quiescent = true →
    (∀ r, guardOf (.txGrant r) s = false) ∧ guardOf .txBuild s = false ∧ guardOf .txEmit s = false
      ∧ guardOf .txAbort s = false ∧ guardOf .txComplete s = false ∧ guardOf .rxReplyEnd s = false

/-! ## Runs -/

/-- R141: from SEEK, any number of bytes none of which is START is discarded, byte by byte: nothing of the block changes. -/
def Obligations.NoiseIsDiscarded : Prop :=
  ∀ (s : State) (noise : List Byte) (rest : List OpWord), s.running = true → s.rxState = .seek →
    (∀ b ∈ noise, b ≠ s.profile.start) → noise ≠ [] →
    s.script = noise.map (fun b => encode (.rxSeek b)) ++ rest →
      Host.Core.run Sys2Proof.core noise.length s = .next { s with script := rest, launched := true }

/-- R76 with R131 to R134 and R124: the bytes of the frame built for a message, all taken, one by one from SEEK, open the
dispatch of that message: its command id, and a view that reads back its parameter. -/
def Obligations.ReceivedFrameDispatchesMessage : Prop :=
  ∀ (s : State) (cmd : Byte) (param f : List Byte), s.running = true → s.profile.wf = true → s.rxState = .seek →
    frameOf s.profile cmd param = .ok f →
      ∃ t, runLines (rxframe f) s = ([], .next t)
        ∧ t.rxState = .dispatch ∧ t.dispCmd = cmd ∧ t.dispLen = param.length
        ∧ (∀ (i : Nat) (b : Byte), param[i]? = some b → exec (.hParamRead i) t = .next { t with ret := some (.byte b) })
        ∧ t.errCnt = s.errCnt ∧ t.diagHist = s.diagHist ∧ t.outHist = s.outHist ∧ t.running = true

/-- R142 and R156: for a waiting requester whose message builds to the frame `f`, the grant, the build, one emission per
byte and the completion are all taken, and put exactly `f` on the channel, answer its length, and free the lock. With r = RXE this is the
"command rejected" reply. -/
def Obligations.GrantedRequestSendsWholeFrame : Prop :=
  ∀ (s : State) (r : Requester) (f : List Byte), s.running = true → s.lock = .free → inReq s.profile r = true →
    (s.slot r).pst = .waiting →
    frameOf s.profile (s.slot r).req.cmd (s.slot r).req.param = .ok f →
      ∃ t, runLines (xmitLines r f.length) s = ([], .next t)
        ∧ t.outHist = s.outHist ++ f
        ∧ (t.slot r).resp = some (f.length : Int) ∧ (t.slot r).pst = .idle ∧ (∀ q, q ≠ r → t.slot q = s.slot q)
        ∧ t.lock = .free ∧ t.txPhase = .idle ∧ t.rxState = s.rxState ∧ t.errCnt = s.errCnt
        ∧ t.diagHist = s.diagHist ∧ t.running = true
end

