-- ==== Sys2Proof/Laws/Decode.lean ====
section
/-! SUPPORT. What the decoder can answer, said once: the tag of a word that decodes is its operation's tag. -/

namespace Sys2Proof

/-- A tag is its group and its index (30_encoding.md R80). -/
theorem tag_eq_of_fields {tag : Byte} {group index : Nat} (hg : tagGroup tag = group) (hi : tagIndex tag = index) :
    tag = BitVec.ofNat 8 (16 * group + index) := by
  unfold tagGroup at hg
  unfold tagIndex at hi
  apply BitVec.eq_of_toNat_eq
  rw [BitVec.toNat_ofNat]
  have := tag.isLt
  omega

/-- A word that decodes carries the tag of its operation. -/
theorem tag_of_decodeGroup {w : OpWord} {i : Instr} (h : decodeGroup w = some i) : w.tag = i.tag := by
  unfold decodeGroup at h
  split at h
  · rename_i hg
    unfold decodeControl at h
    split at h <;> first | (rename_i hi; injection h with h; subst h; exact tag_eq_of_fields hg hi) | cases h
  · rename_i hg
    unfold decodeCodec at h
    split at h <;> first | (rename_i hi; injection h with h; subst h; exact tag_eq_of_fields hg hi) | cases h
  · rename_i hg
    unfold decodeMessage at h
    split at h <;> first | (rename_i hi; injection h with h; subst h; exact tag_eq_of_fields hg hi) | cases h
  · rename_i hg
    unfold decodeReceive at h
    split at h <;> first | (rename_i hi; injection h with h; subst h; exact tag_eq_of_fields hg hi) | cases h
  · rename_i hg
    unfold decodeTransmit at h
    split at h <;> first | (rename_i hi; injection h with h; subst h; exact tag_eq_of_fields hg hi) | cases h
  · cases h

theorem tag_of_decode {w : OpWord} {i : Instr} (h : decode w = .ok i) : w.tag = i.tag := by
  unfold decode at h
  split at h
  · rename_i j hj
    injection h with h
    exact h ▸ tag_of_decodeGroup hj
  · cases h

/-- A word that does not decode is rejected with its own tag. -/
theorem decode_error {w : OpWord} {e : DecodeError} (h : decode w = .error e) : e = .reservedOp w.tag := by
  unfold decode at h
  split at h
  · cases h
  · injection h with h
    exact h.symm

end Sys2Proof
end

