-- ==== Sys2Proof/Laws/State.lean ====
section
/-! SUPPORT. One lemma per field for each named update of the state, so that no later proof unfolds a record update; and
the slot laws of `setSlot`, `respond` and `release`. -/

namespace Sys2Proof.Machine

/-! ## fail -/

@[simp] theorem State.fail_profile (s : State) (f : Fault) : (s.fail f).profile = s.profile := rfl
@[simp] theorem State.fail_initDone (s : State) (f : Fault) : (s.fail f).initDone = s.initDone := rfl
@[simp] theorem State.fail_rxState (s : State) (f : Fault) : (s.fail f).rxState = s.rxState := rfl
@[simp] theorem State.fail_rxBuf (s : State) (f : Fault) : (s.fail f).rxBuf = s.rxBuf := rfl
@[simp] theorem State.fail_rxCnt (s : State) (f : Fault) : (s.fail f).rxCnt = s.rxCnt := rfl
@[simp] theorem State.fail_dispCmd (s : State) (f : Fault) : (s.fail f).dispCmd = s.dispCmd := rfl
@[simp] theorem State.fail_dispLen (s : State) (f : Fault) : (s.fail f).dispLen = s.dispLen := rfl
@[simp] theorem State.fail_rejCmd (s : State) (f : Fault) : (s.fail f).rejCmd = s.rejCmd := rfl
@[simp] theorem State.fail_errCnt (s : State) (f : Fault) : (s.fail f).errCnt = s.errCnt := rfl
@[simp] theorem State.fail_lock (s : State) (f : Fault) : (s.fail f).lock = s.lock := rfl
@[simp] theorem State.fail_ports (s : State) (f : Fault) : (s.fail f).ports = s.ports := rfl
@[simp] theorem State.fail_rxe (s : State) (f : Fault) : (s.fail f).rxe = s.rxe := rfl
@[simp] theorem State.fail_txPhase (s : State) (f : Fault) : (s.fail f).txPhase = s.txPhase := rfl
@[simp] theorem State.fail_txBuf (s : State) (f : Fault) : (s.fail f).txBuf = s.txBuf := rfl
@[simp] theorem State.fail_txLen (s : State) (f : Fault) : (s.fail f).txLen = s.txLen := rfl
@[simp] theorem State.fail_txIdx (s : State) (f : Fault) : (s.fail f).txIdx = s.txIdx := rfl
@[simp] theorem State.fail_outHist (s : State) (f : Fault) : (s.fail f).outHist = s.outHist := rfl
@[simp] theorem State.fail_diagHist (s : State) (f : Fault) : (s.fail f).diagHist = s.diagHist := rfl
@[simp] theorem State.fail_fault (s : State) (f : Fault) : (s.fail f).fault = s.fault.or (some f) := rfl
@[simp] theorem State.fail_refused (s : State) (f : Fault) : (s.fail f).refused = s.refused := rfl
@[simp] theorem State.fail_launched (s : State) (f : Fault) : (s.fail f).launched = s.launched := rfl
@[simp] theorem State.fail_script (s : State) (f : Fault) : (s.fail f).script = s.script := rfl
@[simp] theorem State.fail_ret (s : State) (f : Fault) : (s.fail f).ret = s.ret := rfl
@[simp] theorem State.fail_freeCtr (s : State) (f : Fault) : (s.fail f).freeCtr = s.freeCtr := rfl

@[simp] theorem State.fail_slot (s : State) (f : Fault) (q : Requester) : (s.fail f).slot q = s.slot q := by cases q <;> rfl

/-! ## refuse -/

@[simp] theorem State.refuse_profile (s : State) (r : Refusal) : (s.refuse r).profile = s.profile := rfl
@[simp] theorem State.refuse_initDone (s : State) (r : Refusal) : (s.refuse r).initDone = s.initDone := rfl
@[simp] theorem State.refuse_rxState (s : State) (r : Refusal) : (s.refuse r).rxState = s.rxState := rfl
@[simp] theorem State.refuse_rxBuf (s : State) (r : Refusal) : (s.refuse r).rxBuf = s.rxBuf := rfl
@[simp] theorem State.refuse_rxCnt (s : State) (r : Refusal) : (s.refuse r).rxCnt = s.rxCnt := rfl
@[simp] theorem State.refuse_dispCmd (s : State) (r : Refusal) : (s.refuse r).dispCmd = s.dispCmd := rfl
@[simp] theorem State.refuse_dispLen (s : State) (r : Refusal) : (s.refuse r).dispLen = s.dispLen := rfl
@[simp] theorem State.refuse_rejCmd (s : State) (r : Refusal) : (s.refuse r).rejCmd = s.rejCmd := rfl
@[simp] theorem State.refuse_errCnt (s : State) (r : Refusal) : (s.refuse r).errCnt = s.errCnt := rfl
@[simp] theorem State.refuse_lock (s : State) (r : Refusal) : (s.refuse r).lock = s.lock := rfl
@[simp] theorem State.refuse_ports (s : State) (r : Refusal) : (s.refuse r).ports = s.ports := rfl
@[simp] theorem State.refuse_rxe (s : State) (r : Refusal) : (s.refuse r).rxe = s.rxe := rfl
@[simp] theorem State.refuse_txPhase (s : State) (r : Refusal) : (s.refuse r).txPhase = s.txPhase := rfl
@[simp] theorem State.refuse_txBuf (s : State) (r : Refusal) : (s.refuse r).txBuf = s.txBuf := rfl
@[simp] theorem State.refuse_txLen (s : State) (r : Refusal) : (s.refuse r).txLen = s.txLen := rfl
@[simp] theorem State.refuse_txIdx (s : State) (r : Refusal) : (s.refuse r).txIdx = s.txIdx := rfl
@[simp] theorem State.refuse_outHist (s : State) (r : Refusal) : (s.refuse r).outHist = s.outHist := rfl
@[simp] theorem State.refuse_diagHist (s : State) (r : Refusal) : (s.refuse r).diagHist = s.diagHist := rfl
@[simp] theorem State.refuse_fault (s : State) (r : Refusal) : (s.refuse r).fault = s.fault := rfl
@[simp] theorem State.refuse_refused (s : State) (r : Refusal) : (s.refuse r).refused = s.refused.or (some r) := rfl
@[simp] theorem State.refuse_launched (s : State) (r : Refusal) : (s.refuse r).launched = s.launched := rfl
@[simp] theorem State.refuse_script (s : State) (r : Refusal) : (s.refuse r).script = s.script := rfl
@[simp] theorem State.refuse_ret (s : State) (r : Refusal) : (s.refuse r).ret = s.ret := rfl
@[simp] theorem State.refuse_freeCtr (s : State) (r : Refusal) : (s.refuse r).freeCtr = s.freeCtr := rfl

@[simp] theorem State.refuse_slot (s : State) (r : Refusal) (q : Requester) : (s.refuse r).slot q = s.slot q := by cases q <;> rfl

/-! ## returns -/

@[simp] theorem State.returns_profile (s : State) (v : Result) : (s.returns v).profile = s.profile := rfl
@[simp] theorem State.returns_initDone (s : State) (v : Result) : (s.returns v).initDone = s.initDone := rfl
@[simp] theorem State.returns_rxState (s : State) (v : Result) : (s.returns v).rxState = s.rxState := rfl
@[simp] theorem State.returns_rxBuf (s : State) (v : Result) : (s.returns v).rxBuf = s.rxBuf := rfl
@[simp] theorem State.returns_rxCnt (s : State) (v : Result) : (s.returns v).rxCnt = s.rxCnt := rfl
@[simp] theorem State.returns_dispCmd (s : State) (v : Result) : (s.returns v).dispCmd = s.dispCmd := rfl
@[simp] theorem State.returns_dispLen (s : State) (v : Result) : (s.returns v).dispLen = s.dispLen := rfl
@[simp] theorem State.returns_rejCmd (s : State) (v : Result) : (s.returns v).rejCmd = s.rejCmd := rfl
@[simp] theorem State.returns_errCnt (s : State) (v : Result) : (s.returns v).errCnt = s.errCnt := rfl
@[simp] theorem State.returns_lock (s : State) (v : Result) : (s.returns v).lock = s.lock := rfl
@[simp] theorem State.returns_ports (s : State) (v : Result) : (s.returns v).ports = s.ports := rfl
@[simp] theorem State.returns_rxe (s : State) (v : Result) : (s.returns v).rxe = s.rxe := rfl
@[simp] theorem State.returns_txPhase (s : State) (v : Result) : (s.returns v).txPhase = s.txPhase := rfl
@[simp] theorem State.returns_txBuf (s : State) (v : Result) : (s.returns v).txBuf = s.txBuf := rfl
@[simp] theorem State.returns_txLen (s : State) (v : Result) : (s.returns v).txLen = s.txLen := rfl
@[simp] theorem State.returns_txIdx (s : State) (v : Result) : (s.returns v).txIdx = s.txIdx := rfl
@[simp] theorem State.returns_outHist (s : State) (v : Result) : (s.returns v).outHist = s.outHist := rfl
@[simp] theorem State.returns_diagHist (s : State) (v : Result) : (s.returns v).diagHist = s.diagHist := rfl
@[simp] theorem State.returns_fault (s : State) (v : Result) : (s.returns v).fault = s.fault := rfl
@[simp] theorem State.returns_refused (s : State) (v : Result) : (s.returns v).refused = s.refused := rfl
@[simp] theorem State.returns_launched (s : State) (v : Result) : (s.returns v).launched = s.launched := rfl
@[simp] theorem State.returns_script (s : State) (v : Result) : (s.returns v).script = s.script := rfl
@[simp] theorem State.returns_ret (s : State) (v : Result) : (s.returns v).ret = some v := rfl
@[simp] theorem State.returns_freeCtr (s : State) (v : Result) : (s.returns v).freeCtr = s.freeCtr := rfl

@[simp] theorem State.returns_slot (s : State) (v : Result) (q : Requester) : (s.returns v).slot q = s.slot q := by cases q <;> rfl

/-! ## diag -/

@[simp] theorem State.diag_profile (s : State) (c : Int) : (s.diag c).profile = s.profile := rfl
@[simp] theorem State.diag_initDone (s : State) (c : Int) : (s.diag c).initDone = s.initDone := rfl
@[simp] theorem State.diag_rxState (s : State) (c : Int) : (s.diag c).rxState = s.rxState := rfl
@[simp] theorem State.diag_rxBuf (s : State) (c : Int) : (s.diag c).rxBuf = s.rxBuf := rfl
@[simp] theorem State.diag_rxCnt (s : State) (c : Int) : (s.diag c).rxCnt = s.rxCnt := rfl
@[simp] theorem State.diag_dispCmd (s : State) (c : Int) : (s.diag c).dispCmd = s.dispCmd := rfl
@[simp] theorem State.diag_dispLen (s : State) (c : Int) : (s.diag c).dispLen = s.dispLen := rfl
@[simp] theorem State.diag_rejCmd (s : State) (c : Int) : (s.diag c).rejCmd = s.rejCmd := rfl
@[simp] theorem State.diag_errCnt (s : State) (c : Int) : (s.diag c).errCnt = s.errCnt := rfl
@[simp] theorem State.diag_lock (s : State) (c : Int) : (s.diag c).lock = s.lock := rfl
@[simp] theorem State.diag_ports (s : State) (c : Int) : (s.diag c).ports = s.ports := rfl
@[simp] theorem State.diag_rxe (s : State) (c : Int) : (s.diag c).rxe = s.rxe := rfl
@[simp] theorem State.diag_txPhase (s : State) (c : Int) : (s.diag c).txPhase = s.txPhase := rfl
@[simp] theorem State.diag_txBuf (s : State) (c : Int) : (s.diag c).txBuf = s.txBuf := rfl
@[simp] theorem State.diag_txLen (s : State) (c : Int) : (s.diag c).txLen = s.txLen := rfl
@[simp] theorem State.diag_txIdx (s : State) (c : Int) : (s.diag c).txIdx = s.txIdx := rfl
@[simp] theorem State.diag_outHist (s : State) (c : Int) : (s.diag c).outHist = s.outHist := rfl
@[simp] theorem State.diag_diagHist (s : State) (c : Int) : (s.diag c).diagHist = s.diagHist ++ [c] := rfl
@[simp] theorem State.diag_fault (s : State) (c : Int) : (s.diag c).fault = s.fault := rfl
@[simp] theorem State.diag_refused (s : State) (c : Int) : (s.diag c).refused = s.refused := rfl
@[simp] theorem State.diag_launched (s : State) (c : Int) : (s.diag c).launched = s.launched := rfl
@[simp] theorem State.diag_script (s : State) (c : Int) : (s.diag c).script = s.script := rfl
@[simp] theorem State.diag_ret (s : State) (c : Int) : (s.diag c).ret = s.ret := rfl
@[simp] theorem State.diag_freeCtr (s : State) (c : Int) : (s.diag c).freeCtr = s.freeCtr := rfl

@[simp] theorem State.diag_slot (s : State) (c : Int) (q : Requester) : (s.diag c).slot q = s.slot q := by cases q <;> rfl

/-! ## drop -/

@[simp] theorem State.drop_profile (s : State) (e : ProtoError) : (s.drop e).profile = s.profile := rfl
@[simp] theorem State.drop_initDone (s : State) (e : ProtoError) : (s.drop e).initDone = s.initDone := rfl
@[simp] theorem State.drop_rxState (s : State) (e : ProtoError) : (s.drop e).rxState = .seek := rfl
@[simp] theorem State.drop_rxBuf (s : State) (e : ProtoError) : (s.drop e).rxBuf = s.rxBuf := rfl
@[simp] theorem State.drop_rxCnt (s : State) (e : ProtoError) : (s.drop e).rxCnt = s.rxCnt := rfl
@[simp] theorem State.drop_dispCmd (s : State) (e : ProtoError) : (s.drop e).dispCmd = s.dispCmd := rfl
@[simp] theorem State.drop_dispLen (s : State) (e : ProtoError) : (s.drop e).dispLen = s.dispLen := rfl
@[simp] theorem State.drop_rejCmd (s : State) (e : ProtoError) : (s.drop e).rejCmd = s.rejCmd := rfl
@[simp] theorem State.drop_errCnt (s : State) (e : ProtoError) : (s.drop e).errCnt = s.errCnt + 1 := rfl
@[simp] theorem State.drop_lock (s : State) (e : ProtoError) : (s.drop e).lock = s.lock := rfl
@[simp] theorem State.drop_ports (s : State) (e : ProtoError) : (s.drop e).ports = s.ports := rfl
@[simp] theorem State.drop_rxe (s : State) (e : ProtoError) : (s.drop e).rxe = s.rxe := rfl
@[simp] theorem State.drop_txPhase (s : State) (e : ProtoError) : (s.drop e).txPhase = s.txPhase := rfl
@[simp] theorem State.drop_txBuf (s : State) (e : ProtoError) : (s.drop e).txBuf = s.txBuf := rfl
@[simp] theorem State.drop_txLen (s : State) (e : ProtoError) : (s.drop e).txLen = s.txLen := rfl
@[simp] theorem State.drop_txIdx (s : State) (e : ProtoError) : (s.drop e).txIdx = s.txIdx := rfl
@[simp] theorem State.drop_outHist (s : State) (e : ProtoError) : (s.drop e).outHist = s.outHist := rfl
@[simp] theorem State.drop_diagHist (s : State) (e : ProtoError) : (s.drop e).diagHist = s.diagHist ++ [e.code] := rfl
@[simp] theorem State.drop_fault (s : State) (e : ProtoError) : (s.drop e).fault = s.fault := rfl
@[simp] theorem State.drop_refused (s : State) (e : ProtoError) : (s.drop e).refused = s.refused := rfl
@[simp] theorem State.drop_launched (s : State) (e : ProtoError) : (s.drop e).launched = s.launched := rfl
@[simp] theorem State.drop_script (s : State) (e : ProtoError) : (s.drop e).script = s.script := rfl
@[simp] theorem State.drop_ret (s : State) (e : ProtoError) : (s.drop e).ret = s.ret := rfl
@[simp] theorem State.drop_freeCtr (s : State) (e : ProtoError) : (s.drop e).freeCtr = s.freeCtr := rfl

@[simp] theorem State.drop_slot (s : State) (e : ProtoError) (q : Requester) : (s.drop e).slot q = s.slot q := by cases q <;> rfl

/-! ## emit -/

@[simp] theorem State.emit_profile (s : State) (b : Byte) : (s.emit b).profile = s.profile := rfl
@[simp] theorem State.emit_initDone (s : State) (b : Byte) : (s.emit b).initDone = s.initDone := rfl
@[simp] theorem State.emit_rxState (s : State) (b : Byte) : (s.emit b).rxState = s.rxState := rfl
@[simp] theorem State.emit_rxBuf (s : State) (b : Byte) : (s.emit b).rxBuf = s.rxBuf := rfl
@[simp] theorem State.emit_rxCnt (s : State) (b : Byte) : (s.emit b).rxCnt = s.rxCnt := rfl
@[simp] theorem State.emit_dispCmd (s : State) (b : Byte) : (s.emit b).dispCmd = s.dispCmd := rfl
@[simp] theorem State.emit_dispLen (s : State) (b : Byte) : (s.emit b).dispLen = s.dispLen := rfl
@[simp] theorem State.emit_rejCmd (s : State) (b : Byte) : (s.emit b).rejCmd = s.rejCmd := rfl
@[simp] theorem State.emit_errCnt (s : State) (b : Byte) : (s.emit b).errCnt = s.errCnt := rfl
@[simp] theorem State.emit_lock (s : State) (b : Byte) : (s.emit b).lock = s.lock := rfl
@[simp] theorem State.emit_ports (s : State) (b : Byte) : (s.emit b).ports = s.ports := rfl
@[simp] theorem State.emit_rxe (s : State) (b : Byte) : (s.emit b).rxe = s.rxe := rfl
@[simp] theorem State.emit_txPhase (s : State) (b : Byte) : (s.emit b).txPhase = s.txPhase := rfl
@[simp] theorem State.emit_txBuf (s : State) (b : Byte) : (s.emit b).txBuf = s.txBuf := rfl
@[simp] theorem State.emit_txLen (s : State) (b : Byte) : (s.emit b).txLen = s.txLen := rfl
@[simp] theorem State.emit_txIdx (s : State) (b : Byte) : (s.emit b).txIdx = s.txIdx := rfl
@[simp] theorem State.emit_outHist (s : State) (b : Byte) : (s.emit b).outHist = s.outHist ++ [b] := rfl
@[simp] theorem State.emit_diagHist (s : State) (b : Byte) : (s.emit b).diagHist = s.diagHist := rfl
@[simp] theorem State.emit_fault (s : State) (b : Byte) : (s.emit b).fault = s.fault := rfl
@[simp] theorem State.emit_refused (s : State) (b : Byte) : (s.emit b).refused = s.refused := rfl
@[simp] theorem State.emit_launched (s : State) (b : Byte) : (s.emit b).launched = s.launched := rfl
@[simp] theorem State.emit_script (s : State) (b : Byte) : (s.emit b).script = s.script := rfl
@[simp] theorem State.emit_ret (s : State) (b : Byte) : (s.emit b).ret = s.ret := rfl
@[simp] theorem State.emit_freeCtr (s : State) (b : Byte) : (s.emit b).freeCtr = s.freeCtr := rfl

@[simp] theorem State.emit_slot (s : State) (b : Byte) (q : Requester) : (s.emit b).slot q = s.slot q := by cases q <;> rfl

/-! ## consume -/

@[simp] theorem State.consume_profile (s : State) : (s.consume).profile = s.profile := rfl
@[simp] theorem State.consume_initDone (s : State) : (s.consume).initDone = s.initDone := rfl
@[simp] theorem State.consume_rxState (s : State) : (s.consume).rxState = s.rxState := rfl
@[simp] theorem State.consume_rxBuf (s : State) : (s.consume).rxBuf = s.rxBuf := rfl
@[simp] theorem State.consume_rxCnt (s : State) : (s.consume).rxCnt = s.rxCnt := rfl
@[simp] theorem State.consume_dispCmd (s : State) : (s.consume).dispCmd = s.dispCmd := rfl
@[simp] theorem State.consume_dispLen (s : State) : (s.consume).dispLen = s.dispLen := rfl
@[simp] theorem State.consume_rejCmd (s : State) : (s.consume).rejCmd = s.rejCmd := rfl
@[simp] theorem State.consume_errCnt (s : State) : (s.consume).errCnt = s.errCnt := rfl
@[simp] theorem State.consume_lock (s : State) : (s.consume).lock = s.lock := rfl
@[simp] theorem State.consume_ports (s : State) : (s.consume).ports = s.ports := rfl
@[simp] theorem State.consume_rxe (s : State) : (s.consume).rxe = s.rxe := rfl
@[simp] theorem State.consume_txPhase (s : State) : (s.consume).txPhase = s.txPhase := rfl
@[simp] theorem State.consume_txBuf (s : State) : (s.consume).txBuf = s.txBuf := rfl
@[simp] theorem State.consume_txLen (s : State) : (s.consume).txLen = s.txLen := rfl
@[simp] theorem State.consume_txIdx (s : State) : (s.consume).txIdx = s.txIdx := rfl
@[simp] theorem State.consume_outHist (s : State) : (s.consume).outHist = s.outHist := rfl
@[simp] theorem State.consume_diagHist (s : State) : (s.consume).diagHist = s.diagHist := rfl
@[simp] theorem State.consume_fault (s : State) : (s.consume).fault = s.fault := rfl
@[simp] theorem State.consume_refused (s : State) : (s.consume).refused = s.refused := rfl
@[simp] theorem State.consume_launched (s : State) : (s.consume).launched = s.launched := rfl
@[simp] theorem State.consume_script (s : State) : (s.consume).script = s.script.tail := rfl
@[simp] theorem State.consume_ret (s : State) : (s.consume).ret = s.ret := rfl
@[simp] theorem State.consume_freeCtr (s : State) : (s.consume).freeCtr = s.freeCtr := rfl

@[simp] theorem State.consume_slot (s : State) (q : Requester) : (s.consume).slot q = s.slot q := by cases q <;> rfl

/-! ## offer -/

@[simp] theorem State.offer_profile (s : State) (w : OpWord) : (s.offer w).profile = s.profile := rfl
@[simp] theorem State.offer_initDone (s : State) (w : OpWord) : (s.offer w).initDone = s.initDone := rfl
@[simp] theorem State.offer_rxState (s : State) (w : OpWord) : (s.offer w).rxState = s.rxState := rfl
@[simp] theorem State.offer_rxBuf (s : State) (w : OpWord) : (s.offer w).rxBuf = s.rxBuf := rfl
@[simp] theorem State.offer_rxCnt (s : State) (w : OpWord) : (s.offer w).rxCnt = s.rxCnt := rfl
@[simp] theorem State.offer_dispCmd (s : State) (w : OpWord) : (s.offer w).dispCmd = s.dispCmd := rfl
@[simp] theorem State.offer_dispLen (s : State) (w : OpWord) : (s.offer w).dispLen = s.dispLen := rfl
@[simp] theorem State.offer_rejCmd (s : State) (w : OpWord) : (s.offer w).rejCmd = s.rejCmd := rfl
@[simp] theorem State.offer_errCnt (s : State) (w : OpWord) : (s.offer w).errCnt = s.errCnt := rfl
@[simp] theorem State.offer_lock (s : State) (w : OpWord) : (s.offer w).lock = s.lock := rfl
@[simp] theorem State.offer_ports (s : State) (w : OpWord) : (s.offer w).ports = s.ports := rfl
@[simp] theorem State.offer_rxe (s : State) (w : OpWord) : (s.offer w).rxe = s.rxe := rfl
@[simp] theorem State.offer_txPhase (s : State) (w : OpWord) : (s.offer w).txPhase = s.txPhase := rfl
@[simp] theorem State.offer_txBuf (s : State) (w : OpWord) : (s.offer w).txBuf = s.txBuf := rfl
@[simp] theorem State.offer_txLen (s : State) (w : OpWord) : (s.offer w).txLen = s.txLen := rfl
@[simp] theorem State.offer_txIdx (s : State) (w : OpWord) : (s.offer w).txIdx = s.txIdx := rfl
@[simp] theorem State.offer_outHist (s : State) (w : OpWord) : (s.offer w).outHist = s.outHist := rfl
@[simp] theorem State.offer_diagHist (s : State) (w : OpWord) : (s.offer w).diagHist = s.diagHist := rfl
@[simp] theorem State.offer_fault (s : State) (w : OpWord) : (s.offer w).fault = s.fault := rfl
@[simp] theorem State.offer_refused (s : State) (w : OpWord) : (s.offer w).refused = s.refused := rfl
@[simp] theorem State.offer_launched (s : State) (w : OpWord) : (s.offer w).launched = s.launched := rfl
@[simp] theorem State.offer_script (s : State) (w : OpWord) : (s.offer w).script = w :: s.script := rfl
@[simp] theorem State.offer_ret (s : State) (w : OpWord) : (s.offer w).ret = s.ret := rfl
@[simp] theorem State.offer_freeCtr (s : State) (w : OpWord) : (s.offer w).freeCtr = s.freeCtr := rfl

@[simp] theorem State.offer_slot (s : State) (w : OpWord) (q : Requester) : (s.offer w).slot q = s.slot q := by cases q <;> rfl

/-! ## setSlot -/

@[simp] theorem State.setSlot_profile (s : State) (r : Requester) (x : Slot) : (s.setSlot r x).profile = s.profile := by cases r <;> rfl
@[simp] theorem State.setSlot_initDone (s : State) (r : Requester) (x : Slot) : (s.setSlot r x).initDone = s.initDone := by cases r <;> rfl
@[simp] theorem State.setSlot_rxState (s : State) (r : Requester) (x : Slot) : (s.setSlot r x).rxState = s.rxState := by cases r <;> rfl
@[simp] theorem State.setSlot_rxBuf (s : State) (r : Requester) (x : Slot) : (s.setSlot r x).rxBuf = s.rxBuf := by cases r <;> rfl
@[simp] theorem State.setSlot_rxCnt (s : State) (r : Requester) (x : Slot) : (s.setSlot r x).rxCnt = s.rxCnt := by cases r <;> rfl
@[simp] theorem State.setSlot_dispCmd (s : State) (r : Requester) (x : Slot) : (s.setSlot r x).dispCmd = s.dispCmd := by cases r <;> rfl
@[simp] theorem State.setSlot_dispLen (s : State) (r : Requester) (x : Slot) : (s.setSlot r x).dispLen = s.dispLen := by cases r <;> rfl
@[simp] theorem State.setSlot_rejCmd (s : State) (r : Requester) (x : Slot) : (s.setSlot r x).rejCmd = s.rejCmd := by cases r <;> rfl
@[simp] theorem State.setSlot_errCnt (s : State) (r : Requester) (x : Slot) : (s.setSlot r x).errCnt = s.errCnt := by cases r <;> rfl
@[simp] theorem State.setSlot_lock (s : State) (r : Requester) (x : Slot) : (s.setSlot r x).lock = s.lock := by cases r <;> rfl
@[simp] theorem State.setSlot_txPhase (s : State) (r : Requester) (x : Slot) : (s.setSlot r x).txPhase = s.txPhase := by cases r <;> rfl
@[simp] theorem State.setSlot_txBuf (s : State) (r : Requester) (x : Slot) : (s.setSlot r x).txBuf = s.txBuf := by cases r <;> rfl
@[simp] theorem State.setSlot_txLen (s : State) (r : Requester) (x : Slot) : (s.setSlot r x).txLen = s.txLen := by cases r <;> rfl
@[simp] theorem State.setSlot_txIdx (s : State) (r : Requester) (x : Slot) : (s.setSlot r x).txIdx = s.txIdx := by cases r <;> rfl
@[simp] theorem State.setSlot_outHist (s : State) (r : Requester) (x : Slot) : (s.setSlot r x).outHist = s.outHist := by cases r <;> rfl
@[simp] theorem State.setSlot_diagHist (s : State) (r : Requester) (x : Slot) : (s.setSlot r x).diagHist = s.diagHist := by cases r <;> rfl
@[simp] theorem State.setSlot_fault (s : State) (r : Requester) (x : Slot) : (s.setSlot r x).fault = s.fault := by cases r <;> rfl
@[simp] theorem State.setSlot_refused (s : State) (r : Requester) (x : Slot) : (s.setSlot r x).refused = s.refused := by cases r <;> rfl
@[simp] theorem State.setSlot_launched (s : State) (r : Requester) (x : Slot) : (s.setSlot r x).launched = s.launched := by cases r <;> rfl
@[simp] theorem State.setSlot_script (s : State) (r : Requester) (x : Slot) : (s.setSlot r x).script = s.script := by cases r <;> rfl
@[simp] theorem State.setSlot_ret (s : State) (r : Requester) (x : Slot) : (s.setSlot r x).ret = s.ret := by cases r <;> rfl
@[simp] theorem State.setSlot_freeCtr (s : State) (r : Requester) (x : Slot) : (s.setSlot r x).freeCtr = s.freeCtr := by cases r <;> rfl

/-! ## respond -/

@[simp] theorem State.respond_profile (s : State) (r : Requester) (v : Int) : (s.respond r v).profile = s.profile := by cases r <;> rfl
@[simp] theorem State.respond_initDone (s : State) (r : Requester) (v : Int) : (s.respond r v).initDone = s.initDone := by cases r <;> rfl
@[simp] theorem State.respond_rxState (s : State) (r : Requester) (v : Int) : (s.respond r v).rxState = s.rxState := by cases r <;> rfl
@[simp] theorem State.respond_rxBuf (s : State) (r : Requester) (v : Int) : (s.respond r v).rxBuf = s.rxBuf := by cases r <;> rfl
@[simp] theorem State.respond_rxCnt (s : State) (r : Requester) (v : Int) : (s.respond r v).rxCnt = s.rxCnt := by cases r <;> rfl
@[simp] theorem State.respond_dispCmd (s : State) (r : Requester) (v : Int) : (s.respond r v).dispCmd = s.dispCmd := by cases r <;> rfl
@[simp] theorem State.respond_dispLen (s : State) (r : Requester) (v : Int) : (s.respond r v).dispLen = s.dispLen := by cases r <;> rfl
@[simp] theorem State.respond_rejCmd (s : State) (r : Requester) (v : Int) : (s.respond r v).rejCmd = s.rejCmd := by cases r <;> rfl
@[simp] theorem State.respond_errCnt (s : State) (r : Requester) (v : Int) : (s.respond r v).errCnt = s.errCnt := by cases r <;> rfl
@[simp] theorem State.respond_lock (s : State) (r : Requester) (v : Int) : (s.respond r v).lock = s.lock := by cases r <;> rfl
@[simp] theorem State.respond_txPhase (s : State) (r : Requester) (v : Int) : (s.respond r v).txPhase = s.txPhase := by cases r <;> rfl
@[simp] theorem State.respond_txBuf (s : State) (r : Requester) (v : Int) : (s.respond r v).txBuf = s.txBuf := by cases r <;> rfl
@[simp] theorem State.respond_txLen (s : State) (r : Requester) (v : Int) : (s.respond r v).txLen = s.txLen := by cases r <;> rfl
@[simp] theorem State.respond_txIdx (s : State) (r : Requester) (v : Int) : (s.respond r v).txIdx = s.txIdx := by cases r <;> rfl
@[simp] theorem State.respond_outHist (s : State) (r : Requester) (v : Int) : (s.respond r v).outHist = s.outHist := by cases r <;> rfl
@[simp] theorem State.respond_diagHist (s : State) (r : Requester) (v : Int) : (s.respond r v).diagHist = s.diagHist := by cases r <;> rfl
@[simp] theorem State.respond_fault (s : State) (r : Requester) (v : Int) : (s.respond r v).fault = s.fault := by cases r <;> rfl
@[simp] theorem State.respond_refused (s : State) (r : Requester) (v : Int) : (s.respond r v).refused = s.refused := by cases r <;> rfl
@[simp] theorem State.respond_launched (s : State) (r : Requester) (v : Int) : (s.respond r v).launched = s.launched := by cases r <;> rfl
@[simp] theorem State.respond_script (s : State) (r : Requester) (v : Int) : (s.respond r v).script = s.script := by cases r <;> rfl
@[simp] theorem State.respond_ret (s : State) (r : Requester) (v : Int) : (s.respond r v).ret = s.ret := by cases r <;> rfl
@[simp] theorem State.respond_freeCtr (s : State) (r : Requester) (v : Int) : (s.respond r v).freeCtr = s.freeCtr := by cases r <;> rfl

/-! ## release -/

@[simp] theorem State.release_profile (s : State) (r : Requester) (v : Int) : (s.release r v).profile = s.profile := by cases r <;> rfl
@[simp] theorem State.release_initDone (s : State) (r : Requester) (v : Int) : (s.release r v).initDone = s.initDone := by cases r <;> rfl
@[simp] theorem State.release_rxState (s : State) (r : Requester) (v : Int) : (s.release r v).rxState = s.rxState := by cases r <;> rfl
@[simp] theorem State.release_rxBuf (s : State) (r : Requester) (v : Int) : (s.release r v).rxBuf = s.rxBuf := by cases r <;> rfl
@[simp] theorem State.release_rxCnt (s : State) (r : Requester) (v : Int) : (s.release r v).rxCnt = s.rxCnt := by cases r <;> rfl
@[simp] theorem State.release_dispCmd (s : State) (r : Requester) (v : Int) : (s.release r v).dispCmd = s.dispCmd := by cases r <;> rfl
@[simp] theorem State.release_dispLen (s : State) (r : Requester) (v : Int) : (s.release r v).dispLen = s.dispLen := by cases r <;> rfl
@[simp] theorem State.release_rejCmd (s : State) (r : Requester) (v : Int) : (s.release r v).rejCmd = s.rejCmd := by cases r <;> rfl
@[simp] theorem State.release_errCnt (s : State) (r : Requester) (v : Int) : (s.release r v).errCnt = s.errCnt := by cases r <;> rfl
@[simp] theorem State.release_lock (s : State) (r : Requester) (v : Int) : (s.release r v).lock = .free := by cases r <;> rfl
@[simp] theorem State.release_txPhase (s : State) (r : Requester) (v : Int) : (s.release r v).txPhase = .idle := by cases r <;> rfl
@[simp] theorem State.release_txBuf (s : State) (r : Requester) (v : Int) : (s.release r v).txBuf = s.txBuf := by cases r <;> rfl
@[simp] theorem State.release_txLen (s : State) (r : Requester) (v : Int) : (s.release r v).txLen = s.txLen := by cases r <;> rfl
@[simp] theorem State.release_txIdx (s : State) (r : Requester) (v : Int) : (s.release r v).txIdx = s.txIdx := by cases r <;> rfl
@[simp] theorem State.release_outHist (s : State) (r : Requester) (v : Int) : (s.release r v).outHist = s.outHist := by cases r <;> rfl
@[simp] theorem State.release_diagHist (s : State) (r : Requester) (v : Int) : (s.release r v).diagHist = s.diagHist := by cases r <;> rfl
@[simp] theorem State.release_fault (s : State) (r : Requester) (v : Int) : (s.release r v).fault = s.fault := by cases r <;> rfl
@[simp] theorem State.release_refused (s : State) (r : Requester) (v : Int) : (s.release r v).refused = s.refused := by cases r <;> rfl
@[simp] theorem State.release_launched (s : State) (r : Requester) (v : Int) : (s.release r v).launched = s.launched := by cases r <;> rfl
@[simp] theorem State.release_script (s : State) (r : Requester) (v : Int) : (s.release r v).script = s.script := by cases r <;> rfl
@[simp] theorem State.release_ret (s : State) (r : Requester) (v : Int) : (s.release r v).ret = s.ret := by cases r <;> rfl
@[simp] theorem State.release_freeCtr (s : State) (r : Requester) (v : Int) : (s.release r v).freeCtr = s.freeCtr := by cases r <;> rfl

/-! ## Slots -/

/-- A requester's elements depend on the two slot fields alone. -/
theorem State.slot_congr {s t : State} (hp : s.ports = t.ports) (hx : s.rxe = t.rxe) (q : Requester) :
    s.slot q = t.slot q := by
  cases q <;> simp [State.slot, hp, hx]

/-- The requester `r` has a slot: RXE always, EXT(k) when it is one of the ports. -/
def State.hasSlot (s : State) (r : Requester) : Prop :=
  match r with
  | .ext k => k < s.ports.length
  | .rxe => True

theorem State.hasSlot_of_inReq {s : State} {r : Requester} (hp : s.ports.length = s.profile.numPorts)
    (h : inReq s.profile r = true) : s.hasSlot r := by
  cases r with
  | ext k => simpa [State.hasSlot, hp, inReq] using h
  | rxe => trivial

theorem State.hasSlot_of_pst {s : State} {r : Requester} (h : (s.slot r).pst ≠ .idle) : s.hasSlot r := by
  cases r with
  | rxe => trivial
  | ext k =>
    by_cases hk : k < s.ports.length
    · exact hk
    · exact absurd (by simp [State.slot, List.getElem?_eq_none (Nat.le_of_not_lt hk), Slot.reset]) h

theorem State.slot_setSlot_same {s : State} {r : Requester} (x : Slot) (h : s.hasSlot r) :
    (s.setSlot r x).slot r = x := by
  cases r with
  | ext k =>
    have hk : k < s.ports.length := h
    simp [State.setSlot, State.slot, hk]
  | rxe => rfl

theorem State.slot_setSlot_other {s : State} {r q : Requester} (x : Slot) (h : q ≠ r) :
    (s.setSlot r x).slot q = s.slot q := by
  cases r with
  | ext k =>
    cases q with
    | ext j =>
      have hj : k ≠ j := fun e => h (by rw [e])
      simp [State.setSlot, State.slot, List.getElem?_set_ne hj]
    | rxe => rfl
  | rxe =>
    cases q with
    | ext j => rfl
    | rxe => exact absurd rfl h

theorem State.setSlot_ports_length (s : State) (r : Requester) (x : Slot) :
    (s.setSlot r x).ports.length = s.ports.length := by
  cases r <;> simp [State.setSlot]

theorem State.setSlot_eq (s : State) (r : Requester) (x : Slot) :
    s.setSlot r x = { s with ports := (s.setSlot r x).ports, rxe := (s.setSlot r x).rxe } := by
  cases r <;> rfl

theorem State.slot_respond_same {s : State} {r : Requester} (v : Int) (h : s.hasSlot r) :
    (s.respond r v).slot r = { s.slot r with resp := some v, pst := .idle } :=
  State.slot_setSlot_same _ h

theorem State.slot_respond_other {s : State} {r q : Requester} (v : Int) (h : q ≠ r) :
    (s.respond r v).slot q = s.slot q :=
  State.slot_setSlot_other _ h

theorem State.slot_release_same {s : State} {r : Requester} (v : Int) (h : s.hasSlot r) :
    (s.release r v).slot r = { s.slot r with resp := some v, pst := .idle } := by
  cases r with
  | ext k =>
    have hk : k < s.ports.length := h
    simp [State.release, State.respond, State.setSlot, State.slot, hk]
  | rxe => rfl

theorem State.slot_release_other {s : State} {r q : Requester} (v : Int) (h : q ≠ r) :
    (s.release r v).slot q = s.slot q := by
  rw [State.release, State.slot_respond_other v h]
  exact State.slot_congr rfl rfl q

theorem State.release_ports_length (s : State) (r : Requester) (v : Int) :
    (s.release r v).ports.length = s.ports.length := by
  rw [State.release, State.respond, State.setSlot_ports_length]

/-- Everything `release` can do (R157), said once. -/
theorem State.release_eq (s : State) (r : Requester) (v : Int) :
    s.release r v
      = { s with lock := .free, txPhase := .idle, ports := (s.release r v).ports, rxe := (s.release r v).rxe } := by
  cases r <;> rfl

/-- A state with no mark. -/
theorem State.running_iff (s : State) : s.running = true ↔ s.fault = none ∧ s.refused = none := by
  simp [State.running, Option.isNone_iff_eq_none]

end Sys2Proof.Machine
end

