-- ==== Sys2Proof/Laws/Exec.lean ====
section
/-! SUPPORT. What the shared wrappers of a meaning can do, said once: `whenRunning`, `whenEnabled`, `retire`; and how
`step` takes the head of the script. -/

namespace Sys2Proof.Machine

/-- `whenRunning` answers a next state exactly when no mark is set and its operation does. -/
theorem whenRunning_eq_next {s t : State} {k : Out} :
    whenRunning s k = .next t ↔ s.running = true ∧ k = .next t := by
  rw [State.running_iff]
  unfold whenRunning
  cases s.fault with
  | some f => simp
  | none => cases s.refused <;> simp

@[simp] theorem whenRunning_of_running {s : State} (k : Out) (h : s.running = true) : whenRunning s k = k := by
  obtain ⟨hf, hr⟩ := (State.running_iff s).mp h
  simp [whenRunning, hf, hr]

/-- With the fault mark set every operation so wrapped stops with it. -/
theorem whenRunning_of_fault {s : State} {f : Fault} (k : Out) (h : s.fault = some f) : whenRunning s k = .fault f := by
  simp [whenRunning, h]

theorem whenRunning_of_refused {s : State} {r : Refusal} (k : Out) (hf : s.fault = none) (h : s.refused = some r) :
    whenRunning s k = .refused r := by
  simp [whenRunning, hf, h]

/-- `whenEnabled` answers a next state exactly when no mark is set and either the guard holds and the operation does,
or the guard is false and nothing changes. -/
theorem whenEnabled_eq_next {g : Bool} {s t : State} {k : Out} :
    whenEnabled g s k = .next t ↔
      s.running = true ∧ ((g = true ∧ k = .next t) ∨ (g = false ∧ t = s)) := by
  unfold whenEnabled
  rw [whenRunning_eq_next]
  cases g
  · simp [eq_comm (a := s)]
  · simp

@[simp] theorem whenEnabled_true {s : State} (k : Out) (h : s.running = true) : whenEnabled true s k = k := by
  simp [whenEnabled, h]

@[simp] theorem whenEnabled_false {s : State} (k : Out) (h : s.running = true) :
    whenEnabled false s k = .next s := by
  simp [whenEnabled, h]

/-- A step that was taken only sets `launched`. -/
theorem retire_eq_next {o : Out} {t : State} :
    retire o = .next t ↔ ∃ u, o = .next u ∧ t = { u with launched := true } := by
  cases o <;> simp [retire, eq_comm (b := t)]

/-- Everything a step can do: nothing with an empty script; take the head operation when its guard holds; leave the head
where its guard is false; refuse a reserved tag. -/
theorem step_cases {s t : State} (h : step s = .next t) :
    (s.script = [] ∧ t = s ∧ s.running = true)
    ∨ (∃ w rest i u, s.script = w :: rest ∧ decode w = .ok i ∧ guardOf i s = true
        ∧ exec i s.consume = .next u ∧ t = { u with launched := true })
    ∨ (∃ w rest i, s.script = w :: rest ∧ decode w = .ok i ∧ guardOf i s = false ∧ exec i s = .next t)
    ∨ (∃ w rest e, s.script = w :: rest ∧ decode w = .error e ∧ s.running = true
        ∧ t = { s.consume.refuse .reservedOp with launched := true }) := by
  unfold step takeNext at h
  cases hs : s.script with
  | nil =>
    rw [hs] at h
    obtain ⟨hr, hk⟩ := whenRunning_eq_next.mp h
    injection hk with hk
    exact .inl ⟨rfl, hk.symm, hr⟩
  | cons w rest =>
    rw [hs] at h
    cases hd : decode w with
    | ok i =>
      simp only [hd] at h
      unfold takeOperation at h
      cases hg : guardOf i s with
      | true =>
        simp only [hg, if_true] at h
        obtain ⟨u, hu, ht⟩ := retire_eq_next.mp h
        exact .inr (.inl ⟨w, rest, i, u, rfl, hd, hg, hu, ht⟩)
      | false =>
        simp only [hg, Bool.false_eq_true, if_false] at h
        exact .inr (.inr (.inl ⟨w, rest, i, rfl, hd, hg, h⟩))
    | error e =>
      simp only [hd] at h
      unfold takeReserved at h
      obtain ⟨hr, hk⟩ := whenRunning_eq_next.mp h
      obtain ⟨u, hu, ht⟩ := retire_eq_next.mp hk
      injection hu with hu
      exact .inr (.inr (.inr ⟨w, rest, e, rfl, hd, hr, hu ▸ ht⟩))

end Sys2Proof.Machine
end

