-- ==== Sys2Proof/Laws/Memory.lean ====
section
/-! SUPPORT. The laws of the two buffers: read after write, the canonical form that every memory operation keeps, and
what each of memRead, memWrite, memReadList and memWriteList can do, said once. -/

namespace Sys2Proof.Machine

/-! ## One cell -/

theorem Memory.read_write_same (m : Memory) (i : Nat) (v : Byte) : (m.write i v).read i = some v := by
  induction m with
  | nil => simp [Memory.write, Memory.read]
  | cons c rest ih =>
    simp only [Memory.write]
    split
    · simp [Memory.read]
    · split
      · simp [Memory.read]
      · rename_i h
        simp [Memory.read, h, ih]

theorem Memory.read_write_other (m : Memory) {i j : Nat} (v : Byte) (h : j ≠ i) :
    (m.write i v).read j = m.read j := by
  have hij : i ≠ j := fun e => h e.symm
  induction m with
  | nil => simp [Memory.write, Memory.read, hij]
  | cons c rest ih =>
    simp only [Memory.write]
    split
    · simp [Memory.read, hij]
    · split
      · rename_i hc
        have hcj : c.1 ≠ j := hc ▸ hij
        simp [Memory.read, hij, hcj]
      · simp [Memory.read, ih]

theorem Memory.read_write (m : Memory) (i j : Nat) (v : Byte) :
    (m.write i v).read j = if j = i then some v else m.read j := by
  split
  · rename_i h
    rw [h, Memory.read_write_same]
  · rename_i h
    exact Memory.read_write_other m v h

theorem Memory.read_nil (i : Nat) : Memory.read [] i = none := rfl

/-! ## The canonical form -/

theorem Memory.risingFrom_write (m : Memory) {lo i : Nat} (v : Byte) (hi : lo ≤ i) (h : m.risingFrom lo = true) :
    (m.write i v).risingFrom lo = true := by
  induction m generalizing lo with
  | nil => simp [Memory.write, Memory.risingFrom, hi]
  | cons c rest ih =>
    simp only [Memory.risingFrom, Bool.and_eq_true, decide_eq_true_eq] at h
    simp only [Memory.write]
    split
    · rename_i hlt
      simp only [Memory.risingFrom, Bool.and_eq_true, decide_eq_true_eq]
      exact ⟨hi, hlt, h.2⟩
    · split
      · rename_i hc
        simp only [Memory.risingFrom, Bool.and_eq_true, decide_eq_true_eq]
        exact ⟨hi, hc ▸ h.2⟩
      · rename_i hnlt hne
        simp only [Memory.risingFrom, Bool.and_eq_true, decide_eq_true_eq]
        exact ⟨h.1, ih (by omega) h.2⟩

/-- A write keeps the canonical form. -/
theorem Memory.write_wf (m : Memory) (i : Nat) (v : Byte) (h : m.wf = true) : (m.write i v).wf = true :=
  Memory.risingFrom_write m v (Nat.zero_le i) h

/-- A write inside the space keeps every cell inside it. -/
theorem Memory.write_within (m : Memory) {i size : Nat} (v : Byte) (hi : i < size) (h : m.within size = true) :
    (m.write i v).within size = true := by
  unfold Memory.within at *
  induction m with
  | nil => simp [Memory.write, hi]
  | cons c rest ih =>
    simp only [List.all_cons, Bool.and_eq_true, decide_eq_true_eq] at h
    simp only [Memory.write]
    split
    · simp only [List.all_cons, Bool.and_eq_true, decide_eq_true_eq]
      exact ⟨hi, h.1, h.2⟩
    · split
      · simp only [List.all_cons, Bool.and_eq_true, decide_eq_true_eq]
        exact ⟨hi, h.2⟩
      · simp only [List.all_cons, Bool.and_eq_true, decide_eq_true_eq]
        exact ⟨h.1, ih h.2⟩

/-- In canonical form, a cell below the first one listed is unwritten. -/
theorem Memory.read_below {m : Memory} {lo i : Nat} (h : m.risingFrom lo = true) (hi : i < lo) : m.read i = none := by
  induction m generalizing lo with
  | nil => rfl
  | cons c rest ih =>
    simp only [Memory.risingFrom, Bool.and_eq_true, decide_eq_true_eq] at h
    have hne : c.1 ≠ i := by omega
    simp only [Memory.read, hne, if_false]
    exact ih h.2 (by omega)

/-- Equal contents in canonical form are equal data. -/
theorem Memory.ext_of_read {m n : Memory} {lo : Nat} (hm : m.risingFrom lo = true) (hn : n.risingFrom lo = true)
    (h : ∀ i, m.read i = n.read i) : m = n := by
  induction m generalizing n lo with
  | nil =>
    cases n with
    | nil => rfl
    | cons d rest =>
      have hd := h d.1
      simp [Memory.read] at hd
  | cons c rest ih =>
    cases n with
    | nil =>
      have hc := h c.1
      simp [Memory.read] at hc
    | cons d rest' =>
      simp only [Memory.risingFrom, Bool.and_eq_true, decide_eq_true_eq] at hm hn
      have hcd : c.1 = d.1 := by
        rcases Nat.lt_trichotomy c.1 d.1 with hlt | heq | hgt
        · have hc := h c.1
          have hne : d.1 ≠ c.1 := by omega
          have := Memory.read_below hn.2 (show c.1 < d.1 + 1 by omega)
          simp [Memory.read, hne, this] at hc
        · exact heq
        · have hd := h d.1
          have hne : c.1 ≠ d.1 := by omega
          have := Memory.read_below hm.2 (show d.1 < c.1 + 1 by omega)
          simp [Memory.read, hne, this] at hd
      have hval : c.2 = d.2 := by
        have hc := h c.1
        simpa [Memory.read, hcd] using hc
      have hrest : rest = rest' := by
        refine ih hm.2 (hcd ▸ hn.2) (fun i => ?_)
        by_cases hi : c.1 = i
        · have h1 := Memory.read_below hm.2 (show i < c.1 + 1 by omega)
          have h2 := Memory.read_below hn.2 (show i < d.1 + 1 by omega)
          rw [h1, h2]
        · have hi' : d.1 ≠ i := hcd ▸ hi
          have := h i
          simpa [Memory.read, hi, hi'] using this
      have : c = d := Prod.ext hcd hval
      rw [this, hrest]

/-! ## MemRead and MemWrite -/

theorem memRead_eq_ok {size : Nat} {m : Memory} {i : Nat} {b : Byte} :
    memRead size m i = .ok b ↔ i < size ∧ m.read i = some b := by
  unfold memRead
  split
  · rename_i h
    cases hr : m.read i <;> simp [h]
  · rename_i h
    simp [h]

theorem memWrite_eq_ok {size : Nat} {m n : Memory} {i : Nat} {v : Byte} :
    memWrite size m i v = .ok n ↔ i < size ∧ n = m.write i v := by
  unfold memWrite
  split <;> rename_i h <;> simp [h, eq_comm]

theorem memWrite_of_lt {size : Nat} {i : Nat} (m : Memory) (v : Byte) (h : i < size) :
    memWrite size m i v = .ok (m.write i v) := memWrite_eq_ok.mpr ⟨h, rfl⟩

/-! ## Lists of cells -/

/-- Reading `n` cells from `i` gives `x` exactly when they lie in the space and hold the bytes of `x`. -/
theorem memReadList_eq_ok {size : Nat} {m : Memory} {i n : Nat} {x : List Byte} :
    memReadList size m i n = .ok x ↔
      x.length = n ∧ ∀ k, k < n → i + k < size ∧ m.read (i + k) = x[k]? := by
  induction n generalizing i x with
  | zero =>
    simp only [memReadList, Except.ok.injEq]
    constructor
    · rintro rfl
      simp
    · rintro ⟨h, -⟩
      exact (List.length_eq_zero_iff.mp h).symm
  | succ n ih =>
    simp only [memReadList]
    cases hb : memRead size m i with
    | error f =>
      simp only [reduceCtorEq, false_iff, not_and]
      intro hl hall
      have h0 := hall 0 (by omega)
      obtain ⟨b, xs, rfl⟩ := List.exists_cons_of_ne_nil (show x ≠ [] by rintro rfl; simp at hl)
      have : memRead size m i = .ok b := memRead_eq_ok.mpr ⟨by simpa using h0.1, by simpa using h0.2⟩
      rw [hb] at this
      exact absurd this (by simp)
    | ok b =>
      have hb' := memRead_eq_ok.mp hb
      cases hr : memReadList size m (i + 1) n with
      | error f =>
        simp only [reduceCtorEq, false_iff, not_and]
        intro hl hall
        obtain ⟨c, xs, rfl⟩ := List.exists_cons_of_ne_nil (show x ≠ [] by rintro rfl; simp at hl)
        have : memReadList size m (i + 1) n = .ok xs := by
          refine ih.mpr ⟨by simpa using hl, fun k hk => ?_⟩
          have := hall (k + 1) (by omega)
          simpa [Nat.add_assoc, Nat.add_comm 1 k] using this
        rw [hr] at this
        exact absurd this (by simp)
      | ok xs =>
        obtain ⟨hl', hall'⟩ := ih.mp hr
        simp only [Except.ok.injEq]
        constructor
        · rintro rfl
          refine ⟨by simp [hl'], fun k hk => ?_⟩
          cases k with
          | zero => simpa using hb'
          | succ k =>
            have := hall' k (by omega)
            simpa [Nat.add_assoc, Nat.add_comm 1 k] using this
        · rintro ⟨hl, hall⟩
          obtain ⟨c, ys, rfl⟩ := List.exists_cons_of_ne_nil (show x ≠ [] by rintro rfl; simp at hl)
          have h0 := hall 0 (by omega)
          have hc : b = c := by simpa [hb'.2] using h0.2
          have hys : memReadList size m (i + 1) n = .ok ys := by
            refine ih.mpr ⟨by simpa using hl, fun k hk => ?_⟩
            have := hall (k + 1) (by omega)
            simpa [Nat.add_assoc, Nat.add_comm 1 k] using this
          rw [hr] at hys
          injection hys with e
          rw [hc, e]

/-- Cells that are all written can be read. -/
theorem memReadList_of_filled {size : Nat} {m : Memory} {n : Nat} (hn : n ≤ size)
    (h : ∀ i, i < n → (m.read i).isSome = true) : ∃ x, memReadList size m 0 n = .ok x := by
  suffices H : ∀ k i, i + k ≤ n → ∃ x, memReadList size m i k = .ok x by
    simpa using H n 0 (by omega)
  intro k
  induction k with
  | zero => exact fun i _ => ⟨[], rfl⟩
  | succ k ih =>
    intro i hi
    obtain ⟨b, hb⟩ := Option.isSome_iff_exists.mp (h i (by omega))
    obtain ⟨xs, hxs⟩ := ih (i + 1) (by omega)
    have : memRead size m i = .ok b := memRead_eq_ok.mpr ⟨by omega, hb⟩
    exact ⟨b :: xs, by simp [memReadList, this, hxs]⟩

/-- A list that fits is written. -/
theorem memWriteList_of_fits {size : Nat} (x : List Byte) (m : Memory) {i : Nat} (h : i + x.length ≤ size) :
    ∃ n, memWriteList size m i x = .ok n := by
  induction x generalizing m i with
  | nil => exact ⟨m, rfl⟩
  | cons b rest ih =>
    simp only [List.length_cons] at h
    simp only [memWriteList, memWrite_of_lt m b (show i < size by omega)]
    exact ih (m.write i b) (by omega)

/-- What a written list leaves: its bytes in their cells, every other cell as it was. -/
theorem memWriteList_read {size : Nat} {x : List Byte} {m n : Memory} {i : Nat} (h : memWriteList size m i x = .ok n)
    (j : Nat) : n.read j = if i ≤ j ∧ j < i + x.length then x[j - i]? else m.read j := by
  induction x generalizing m i with
  | nil =>
    simp only [memWriteList, Except.ok.injEq] at h
    have hno : ¬ (i ≤ j ∧ j < i + ([] : List Byte).length) := by simp
    rw [if_neg hno, h]
  | cons b rest ih =>
    simp only [memWriteList] at h
    cases hw : memWrite size m i b with
    | error f => simp [hw] at h
    | ok m' =>
      simp only [hw] at h
      obtain ⟨-, rfl⟩ := memWrite_eq_ok.mp hw
      rw [ih h, Memory.read_write]
      by_cases hj : j = i
      · subst hj
        have h1 : ¬ (j + 1 ≤ j ∧ j < j + 1 + rest.length) := by omega
        have h2 : j ≤ j ∧ j < j + (b :: rest).length := by simp
        simp [h1]
      · by_cases hin : i + 1 ≤ j ∧ j < i + 1 + rest.length
        · have h2 : i ≤ j ∧ j < i + (b :: rest).length := by simp; omega
          obtain ⟨d, rfl⟩ : ∃ d, j = i + 1 + d := ⟨j - (i + 1), by omega⟩
          have e1 : i + 1 + d - i = d + 1 := by omega
          have e2 : i + 1 + d - (i + 1) = d := by omega
          rw [if_pos hin, if_pos h2, e1, e2]
          simp
        · have h2 : ¬ (i ≤ j ∧ j < i + (b :: rest).length) := by simp; omega
          simp only [if_neg hin, if_neg h2, if_neg hj]

/-- Writing a list keeps the canonical form and the bounds of the space. -/
theorem memWriteList_keeps {size : Nat} {x : List Byte} {m n : Memory} {i : Nat}
    (h : memWriteList size m i x = .ok n) (hw : m.wf = true) (hin : m.within size = true) :
    n.wf = true ∧ n.within size = true := by
  induction x generalizing m i with
  | nil =>
    simp only [memWriteList, Except.ok.injEq] at h
    exact h ▸ ⟨hw, hin⟩
  | cons b rest ih =>
    simp only [memWriteList] at h
    cases hm : memWrite size m i b with
    | error f => simp [hm] at h
    | ok m' =>
      simp only [hm] at h
      obtain ⟨hlt, rfl⟩ := memWrite_eq_ok.mp hm
      exact ih h (Memory.write_wf m i b hw) (Memory.write_within m b hlt hin)

end Sys2Proof.Machine
end

