-- ==== Sys2Proof/Laws/Params.lean ====
section
/-! SUPPORT. What a well-formed profile gives (00_scope.md R9), and the small laws of STUFF_BYTE, STUFF and DELIM_CLASS. -/

namespace Sys2Proof

/-- WF(P) as its conditions (a) to (g). -/
theorem Profile.wf_iff (P : Profile) :
    P.wf = true ↔
      (P.start ≠ P.stop ∧ P.start ≠ P.esc ∧ P.stop ≠ P.esc)
      ∧ (∀ b ∈ P.rsv, P.escMap b ∉ P.rsv)
      ∧ (∀ b ∈ P.rsv, ∀ c ∈ P.rsv, P.escMap b = P.escMap c → b = c)
      ∧ P.chkWidthOk = true ∧ 1 ≤ P.chkW ∧ P.minFrame ≤ P.maxFrameSize ∧ 1 ≤ P.numPorts := by
  simp only [Profile.wf, Bool.and_eq_true, decide_eq_true_eq, List.all_eq_true]
  constructor
  · rintro ⟨⟨⟨⟨⟨⟨a, b⟩, c⟩, d⟩, e⟩, f⟩, g⟩
    exact ⟨a, b, c, d, e, f, g⟩
  · rintro ⟨a, b, c, d, e, f, g⟩
    exact ⟨⟨⟨⟨⟨⟨a, b⟩, c⟩, d⟩, e⟩, f⟩, g⟩

theorem Profile.mem_rsv (P : Profile) (b : Byte) : b ∈ P.rsv ↔ b = P.start ∨ b = P.stop ∨ b = P.esc := by
  simp [Profile.rsv]

/-- CHK's result has CHK_W bytes (R9 d). -/
theorem Profile.checksum_length {P : Profile} (h : P.chkWidthOk = true) (x : List Byte) :
    (P.checksum x).length = P.chkW := by
  unfold Profile.checksum Profile.chkWidthOk at *
  cases hc : P.chk with
  | sum8 => simp_all
  | custom id => simp

/-- UNESC undoes ESCMAP on RSV (40_codec.md R100). -/
theorem Profile.unesc_escMap {P : Profile} (h : P.wf = true) {b : Byte} (hb : b ∈ P.rsv) :
    P.unesc (P.escMap b) = some b := by
  obtain ⟨-, -, hinj, -⟩ := (Profile.wf_iff P).mp h
  unfold Profile.unesc
  cases hf : P.rsv.find? (fun c => decide (P.escMap c = P.escMap b)) with
  | none => exact absurd (decide_eq_true rfl) (List.find?_eq_none.mp hf b hb)
  | some c =>
    have hc := List.find?_some hf
    rw [hinj c (List.mem_of_find?_eq_some hf) b hb (of_decide_eq_true hc)]

/-- UNESC answers only reserved bytes, and the byte whose code it was given. -/
theorem Profile.unesc_eq_some {P : Profile} {y b : Byte} (h : P.unesc y = some b) : b ∈ P.rsv ∧ P.escMap b = y := by
  unfold Profile.unesc at h
  exact ⟨List.mem_of_find?_eq_some h, by simpa using List.find?_some h⟩

namespace Machine

theorem delimClass_eq_data {P : Profile} {b : Byte} : delimClass P b = .data ↔ b ∉ P.rsv := by
  rw [Profile.mem_rsv]
  unfold delimClass
  split
  · simp_all
  · split
    · simp_all
    · split <;> simp_all

theorem delimClass_start (P : Profile) : delimClass P P.start = .start := by simp [delimClass]

theorem delimClass_stop {P : Profile} (h : P.wf = true) : delimClass P P.stop = .stop := by
  have hne := ((Profile.wf_iff P).mp h).1
  simp [delimClass, hne.1.symm]

theorem delimClass_esc {P : Profile} (h : P.wf = true) : delimClass P P.esc = .esc := by
  have hne := ((Profile.wf_iff P).mp h).1
  simp [delimClass, hne.2.1.symm, hne.2.2.symm]

theorem delimClass_eq_start {P : Profile} {b : Byte} : delimClass P b = .start ↔ b = P.start := by
  unfold delimClass
  split
  · simp_all
  · split
    · simp_all
    · split <;> simp_all

theorem stuffByte_of_mem {P : Profile} {b : Byte} (h : b ∈ P.rsv) : stuffByte P b = [P.esc, P.escMap b] := by
  simp [stuffByte, h]

theorem stuffByte_of_not_mem {P : Profile} {b : Byte} (h : b ∉ P.rsv) : stuffByte P b = [b] := by
  simp [stuffByte, h]

@[simp] theorem stuff_nil (P : Profile) : stuff P [] = [] := rfl

@[simp] theorem stuff_cons (P : Profile) (b : Byte) (x : List Byte) : stuff P (b :: x) = stuffByte P b ++ stuff P x := rfl

theorem stuff_append (P : Profile) (x y : List Byte) : stuff P (x ++ y) = stuff P x ++ stuff P y := by
  induction x with
  | nil => rfl
  | cons b x ih => simp [ih]

/-- DESTUFF reads an escape pair. -/
theorem destuff_pair (P : Profile) (y : Byte) (rest : List Byte) (h : delimClass P P.esc = .esc) :
    destuff P (P.esc :: y :: rest) =
      match P.unesc y with
      | none => none
      | some b => (destuff P rest).map (b :: ·) := by
  cases hu : P.unesc y <;> simp [destuff, h, hu]

/-- DESTUFF passes a data byte through. -/
theorem destuff_data {P : Profile} {c : Byte} (h : delimClass P c = .data) (rest : List Byte) :
    destuff P (c :: rest) = (destuff P rest).map (c :: ·) := by
  cases rest with
  | nil => simp [destuff, h]
  | cons y rest => simp only [destuff, h]

end Machine
end Sys2Proof
end

