-- ==== Sys2Proof/Laws/Effects.lean ====
section
/-! SUPPORT. Everything each stateful operation can do when it answers a next state, said once: the case (with its
guard) and the state it leaves. A proof about exec cites these and unfolds no meaning. -/

namespace Sys2Proof.Machine

/-! ## The codec's outcomes -/

/-- DESTUFF_AND_VERIFY accepts exactly a body that destuffs to a payload whose checksum matches. -/
theorem destuffAndVerify_eq_ok {P : Profile} {x raw : List Byte} :
    destuffAndVerify P x = .ok raw ↔
      P.minFrame ≤ x.length ∧ destuff P x = some raw ∧ P.minFrame ≤ raw.length ∧ chkVerify P raw = true := by
  unfold destuffAndVerify
  split
  · rename_i h
    simp [Nat.not_le.mpr h]
  · rename_i h
    cases hd : destuff P x with
    | none => simp
    | some r =>
      simp only []
      split
      · rename_i hr
        simp only [reduceCtorEq, false_iff]
        rintro ⟨-, e, h3, -⟩
        injection e with e
        subst e
        omega
      · rename_i hr
        split
        · rename_i hv
          simp only [Except.ok.injEq, Option.some.injEq]
          constructor
          · rintro rfl
            exact ⟨by omega, rfl, by omega, hv⟩
          · exact fun e => e.2.1
        · rename_i hv
          simp only [reduceCtorEq, false_iff]
          rintro ⟨-, e, -, h4⟩
          injection e with e
          subst e
          exact hv h4

/-- The only errors of DESTUFF_AND_VERIFY. -/
theorem destuffAndVerify_error {P : Profile} {x : List Byte} {e : ProtoError} (h : destuffAndVerify P x = .error e) :
    e = .badSize ∨ e = .badChecksum := by
  unfold destuffAndVerify at h
  split at h
  · exact .inl (by injection h with h; exact h.symm)
  · cases hd : destuff P x with
    | none => rw [hd] at h; exact .inr (by injection h with h; exact h.symm)
    | some r =>
      simp only [hd] at h
      split at h
      · exact .inl (by injection h with h; exact h.symm)
      · split at h
        · simp at h
        · exact .inr (by injection h with h; exact h.symm)

/-- Destuffing never gives more bytes than it reads. -/
theorem destuff_length_le {P : Profile} {s raw : List Byte} (h : destuff P s = some raw) : raw.length ≤ s.length := by
  fun_induction destuff P s generalizing raw with
  | case1 => simp at h; simp [← h]
  | case2 c hc => simp at h
  | case3 c hc => simp at h
  | case4 c hc => simp at h
  | case5 c hc => simp at h; simp [← h]
  | case6 c y rest hc hu => simp at h
  | case7 c y rest hc b hu ih =>
    simp only [Option.map_eq_some_iff] at h
    obtain ⟨a, ha, rfl⟩ := h
    have := ih ha
    simp only [List.length_cons]
    omega
  | case8 => simp at h
  | case9 => simp at h
  | case10 c y rest hc ih =>
    simp only [Option.map_eq_some_iff] at h
    obtain ⟨a, ha, rfl⟩ := h
    have := ih ha
    simp only [List.length_cons] at this ⊢
    omega

/-- The built frame: the stuffed payload between START and STOP, no longer than TXB. -/
theorem frameOf_eq_ok {P : Profile} {cmd : Byte} {param f : List Byte} :
    frameOf P cmd param = .ok f ↔
      1 + param.length + P.chkW ≤ P.maxFrameSize
      ∧ (stuff P (cmd :: param ++ P.checksum (cmd :: param))).length ≤ P.maxFrameSize
      ∧ f = [P.start] ++ stuff P (cmd :: param ++ P.checksum (cmd :: param)) ++ [P.stop] := by
  by_cases h : 1 + param.length + P.chkW ≤ P.maxFrameSize
  · rw [frameOf, encodeMessage, if_neg (Nat.not_lt.mpr h)]
    simp only [stuffAndChecksum]
    by_cases h2 : (stuff P (cmd :: param ++ P.checksum (cmd :: param))).length ≤ P.maxFrameSize
    · rw [if_neg (Nat.not_lt.mpr h2), Except.ok.injEq]
      exact ⟨fun e => ⟨h, h2, e.symm⟩, fun e => e.2.2.symm⟩
    · rw [if_pos (Nat.not_le.mp h2)]
      simp only [reduceCtorEq, false_iff]
      exact fun e => h2 e.2.1
  · rw [frameOf, encodeMessage, if_pos (Nat.not_le.mp h)]
    simp only [reduceCtorEq, false_iff]
    exact fun e => h e.1

theorem frameOf_length_le {P : Profile} {cmd : Byte} {param f : List Byte} (h : frameOf P cmd param = .ok f) :
    f.length ≤ P.txbSize := by
  obtain ⟨-, h2, rfl⟩ := frameOf_eq_ok.mp h
  simp only [Profile.txbSize, List.length_append, List.length_cons, List.length_nil] at h2 ⊢
  omega

theorem length_le_stuff (P : Profile) (x : List Byte) : x.length ≤ (stuff P x).length := by
  induction x with
  | nil => simp
  | cons b x ih =>
    have : 1 ≤ (stuffByte P b).length := by
      unfold stuffByte
      split <;> simp
    simp only [stuff_cons, List.length_append, List.length_cons]
    omega

/-- A built frame has at least MIN_FRAME + 2 bytes. -/
theorem frameOf_length_ge {P : Profile} {cmd : Byte} {param f : List Byte} (hw : P.chkWidthOk = true)
    (h : frameOf P cmd param = .ok f) : P.minFrame + 2 ≤ f.length := by
  obtain ⟨-, -, rfl⟩ := frameOf_eq_ok.mp h
  have h1 := length_le_stuff P (cmd :: param ++ P.checksum (cmd :: param))
  have h2 := Profile.checksum_length hw (cmd :: param)
  simp only [Profile.minFrame, List.length_append, List.length_cons, List.length_nil, h2] at h1 ⊢
  omega

/-! ## The standalone codec and message operations -/

/-- A codec or message operation returns a value, or is DECODE_CMD of an empty list, which records UnwrittenRead. -/
theorem exec_pure_cases {i : Instr} {s t : State} (hi : i.agent = .codec ∨ i.agent = .message) (h : exec i s = .next t) :
    s.running = true ∧ ((∃ v, t = s.returns v) ∨ (i = .decodeCmd [] ∧ t = s.fail .unwrittenRead)) := by
  cases i <;> simp only [Instr.agent, reduceCtorEq, or_false, false_or, or_self] at hi
  case decodeCmd raw =>
    obtain ⟨hr, hk⟩ := whenRunning_eq_next.mp h
    injection hk with hk
    cases raw with
    | nil => exact ⟨hr, .inr ⟨rfl, hk.symm⟩⟩
    | cons b rest => exact ⟨hr, .inl ⟨_, hk.symm⟩⟩
  all_goals
    obtain ⟨hr, hk⟩ := whenRunning_eq_next.mp h
    injection hk with hk
    exact ⟨hr, .inl ⟨_, hk.symm⟩⟩

/-! ## Control -/

theorem execReset_cases {s t : State} (h : execReset s = .next t) :
    (s.launched = true ∧ s.running = true ∧ t = s.refuse .resetWhileRunning)
    ∨ (s.launched = false ∧ s.profile.wf = true ∧ t = s.applyReset)
    ∨ (s.launched = false ∧ s.profile.wf = false ∧ t = s.refuse .badProfile) := by
  unfold execReset at h
  cases hl : s.launched with
  | true =>
    simp only [hl, if_true] at h
    obtain ⟨hr, hk⟩ := whenRunning_eq_next.mp h
    injection hk with hk
    exact .inl ⟨rfl, hr, hk.symm⟩
  | false =>
    simp only [hl, Bool.false_eq_true, if_false] at h
    split at h
    · rename_i hw
      injection h with h
      exact .inr (.inl ⟨rfl, hw, h.symm⟩)
    · rename_i hw
      injection h with h
      exact .inr (.inr ⟨rfl, by simpa using hw, h.symm⟩)

theorem execInit_cases {s t : State} {a b : Nat} {d : InitDraw} (h : execInit a b d s = .next t) :
    s.running = true ∧
      ((s.initDone = true ∧ t = s.fail .doubleInit)
      ∨ (s.initDone = false ∧ d = .ok ∧ t = { s with initDone := true, rxState := .seek, ret := some (.code 0) })
      ∨ (s.initDone = false ∧ d = .fail ∧ t = { s with ret := some (.code (-10)) })) := by
  unfold execInit at h
  obtain ⟨hr, hk⟩ := whenRunning_eq_next.mp h
  injection hk with hk
  refine ⟨hr, ?_⟩
  cases hi : s.initDone with
  | true => exact .inl ⟨rfl, by rw [← hk, if_pos hi]⟩
  | false =>
    rw [if_neg (show ¬ s.initDone = true by simp [hi])] at hk
    subst hk
    cases d with
    | ok => exact .inr (.inl ⟨rfl, rfl, rfl⟩)
    | fail => exact .inr (.inr ⟨rfl, rfl, by simp only [State.returns, hi]; rfl⟩)

/-! ## The receive engine and the handler -/

theorem execRxSeek_cases {s t : State} {b : Byte} (h : execRxSeek b s = .next t) :
    s.running = true ∧
      ((s.rxState = .seek ∧ b = s.profile.start ∧ t = { s with rxCnt := 0, rxState := .accum }) ∨ t = s) := by
  unfold execRxSeek at h
  obtain ⟨hr, ⟨hg, hk⟩ | ⟨-, hk⟩⟩ := whenEnabled_eq_next.mp h
  · injection hk with hk
    refine ⟨hr, ?_⟩
    by_cases hb : delimClass s.profile b = .start
    · rw [if_pos hb] at hk
      exact .inl ⟨of_decide_eq_true hg, delimClass_eq_start.mp hb, hk.symm⟩
    · rw [if_neg hb] at hk
      exact .inr hk.symm
  · exact ⟨hr, .inr hk⟩

theorem execRxAccum_cases {s t : State} {b : Byte} (h : execRxAccum b s = .next t) :
    s.running = true ∧
      ((s.rxState = .accum ∧ b ≠ s.profile.stop ∧ s.rxCnt < s.profile.maxFrameSize
        ∧ t = { s with rxBuf := s.rxBuf.write s.rxCnt b, rxCnt := s.rxCnt + 1 }) ∨ t = s) := by
  unfold execRxAccum at h
  obtain ⟨hr, ⟨hg, hk⟩ | ⟨-, hk⟩⟩ := whenEnabled_eq_next.mp h
  · obtain ⟨h1, h2, h3⟩ := of_decide_eq_true hg
    rw [memWrite_of_lt _ _ (show s.rxCnt < s.profile.rxbSize from h3)] at hk
    injection hk with hk
    exact ⟨hr, .inl ⟨h1, h2, h3, hk.symm⟩⟩
  · exact ⟨hr, .inr hk⟩

theorem execRxOverflow_cases {s t : State} {b : Byte} (h : execRxOverflow b s = .next t) :
    s.running = true ∧
      ((s.rxState = .accum ∧ b ≠ s.profile.stop ∧ s.rxCnt = s.profile.maxFrameSize ∧ t = s.drop .frameTooLong)
      ∨ t = s) := by
  unfold execRxOverflow at h
  obtain ⟨hr, ⟨hg, hk⟩ | ⟨-, hk⟩⟩ := whenEnabled_eq_next.mp h
  · obtain ⟨h1, h2, h3⟩ := of_decide_eq_true hg
    injection hk with hk
    exact ⟨hr, .inl ⟨h1, h2, h3, hk.symm⟩⟩
  · exact ⟨hr, .inr hk⟩

/-- `dispatch` on a payload of at least MIN_FRAME bytes opens the call. -/
theorem dispatch_cons (s : State) (m : Memory) {cmd : Byte} {rest : List Byte}
    (h : s.profile.minFrame ≤ (cmd :: rest).length) :
    dispatch s m (cmd :: rest)
      = { s with rxBuf := m, dispCmd := cmd, dispLen := (cmd :: rest).length - 1 - s.profile.chkW, rxState := .dispatch } := by
  simp only [dispatch, decodeCommand, decodeParameter, if_neg (Nat.not_lt.mpr h)]

/-- RX_STOP: an unreadable body; a dropped body; or the dispatch of a valid one, written in place. -/
theorem execRxStop_cases {s t : State} {b : Byte} (h : execRxStop b s = .next t) :
    s.running = true ∧
      (t = s
      ∨ (s.rxState = .accum ∧ b = s.profile.stop ∧
          ((∃ f, memReadList s.profile.rxbSize s.rxBuf 0 s.rxCnt = .error f ∧ t = s.fail f)
          ∨ ∃ x, memReadList s.profile.rxbSize s.rxBuf 0 s.rxCnt = .ok x ∧
            ((∃ e, destuffAndVerify s.profile x = .error e ∧ (e = .badSize ∨ e = .badChecksum) ∧ t = s.drop e)
            ∨ ∃ cmd rest m, destuffAndVerify s.profile x = .ok (cmd :: rest)
                ∧ s.profile.minFrame ≤ (cmd :: rest).length ∧ (cmd :: rest).length ≤ s.rxCnt
                ∧ (s.rxCnt ≤ s.profile.maxFrameSize ∧ memWriteList s.profile.rxbSize s.rxBuf 0 (cmd :: rest) = .ok m
                    ∧ t = { s with rxBuf := m, dispCmd := cmd, dispLen := (cmd :: rest).length - 1 - s.profile.chkW,
                                   rxState := .dispatch }))))) := by
  unfold execRxStop at h
  obtain ⟨hr, ⟨hg, hk⟩ | ⟨-, hk⟩⟩ := whenEnabled_eq_next.mp h
  · obtain ⟨h1, h2⟩ := of_decide_eq_true hg
    refine ⟨hr, .inr ⟨h1, h2, ?_⟩⟩
    cases hm : memReadList s.profile.rxbSize s.rxBuf 0 s.rxCnt with
    | error f =>
      simp only [hm] at hk
      injection hk with hk
      exact .inl ⟨f, rfl, hk.symm⟩
    | ok x =>
      refine .inr ⟨x, rfl, ?_⟩
      simp only [hm] at hk
      cases hv : destuffAndVerify s.profile x with
      | error e =>
        simp only [hv] at hk
        injection hk with hk
        exact .inl ⟨e, rfl, destuffAndVerify_error hv, hk.symm⟩
      | ok raw =>
        obtain ⟨-, hd, hmin, -⟩ := destuffAndVerify_eq_ok.mp hv
        obtain ⟨hxl, hcells⟩ := memReadList_eq_ok.mp hm
        have hle := destuff_length_le hd
        have hcnt : s.rxCnt ≤ s.profile.maxFrameSize := by
          rcases Nat.eq_zero_or_pos s.rxCnt with h0 | h0
          · omega
          · have := (hcells (s.rxCnt - 1) (by omega)).1
            simp only [Profile.rxbSize] at this
            omega
        obtain ⟨m, hw⟩ := memWriteList_of_fits (size := s.profile.rxbSize) raw s.rxBuf (i := 0)
          (by simp only [Profile.rxbSize]; omega)
        cases raw with
        | nil => simp [Profile.minFrame] at hmin
        | cons cmd rest =>
          simp only [hv, hw, dispatch_cons s m hmin] at hk
          injection hk with hk
          exact .inr ⟨cmd, rest, m, rfl, hmin, by omega, hcnt, hw, hk.symm⟩
  · exact ⟨hr, .inl hk⟩

theorem execHParamRead_cases {s t : State} {i : Nat} (h : execHParamRead i s = .next t) :
    s.running = true ∧
      ((s.rxState ≠ .dispatch ∧ t = s.fail .paramViewExpired)
      ∨ (s.rxState = .dispatch ∧ s.dispLen ≤ i ∧ t = s.fail .paramViewOutOfRange)
      ∨ (s.rxState = .dispatch ∧ i < s.dispLen ∧
          ((∃ f, memRead s.profile.rxbSize s.rxBuf (1 + i) = .error f ∧ t = s.fail f)
          ∨ ∃ b, memRead s.profile.rxbSize s.rxBuf (1 + i) = .ok b ∧ t = s.returns (.byte b)))) := by
  unfold execHParamRead at h
  obtain ⟨hr, hk⟩ := whenRunning_eq_next.mp h
  injection hk with hk
  refine ⟨hr, ?_⟩
  by_cases hd : s.rxState = .dispatch
  · rw [if_neg (by simpa using hd)] at hk
    by_cases hi : s.dispLen ≤ i
    · rw [if_pos hi] at hk
      exact .inr (.inl ⟨hd, hi, hk.symm⟩)
    · rw [if_neg hi] at hk
      refine .inr (.inr ⟨hd, by omega, ?_⟩)
      cases hm : memRead s.profile.rxbSize s.rxBuf (1 + i) with
      | error f => exact .inl ⟨f, rfl, by simpa only [hm] using hk.symm⟩
      | ok b => exact .inr ⟨b, rfl, by simpa only [hm] using hk.symm⟩
  · rw [if_pos hd] at hk
    exact .inl ⟨hd, hk.symm⟩

theorem execHReturn_cases {s t : State} {v : Int} (h : execHReturn v s = .next t) :
    s.running = true ∧
      ((s.rxState ≠ .dispatch ∧ t = s.fail .returnWithoutCall)
      ∨ (s.rxState = .dispatch ∧ v = -5 ∧ t = queueReply s)
      ∨ (s.rxState = .dispatch ∧ -4 ≤ v ∧ v ≤ -1 ∧ t = { s with diagHist := s.diagHist ++ [v], rxState := .seek })
      ∨ (s.rxState = .dispatch ∧ (v < -5 ∨ -1 < v) ∧ t = { s with rxState := .seek })) := by
  unfold execHReturn at h
  obtain ⟨hr, hk⟩ := whenRunning_eq_next.mp h
  injection hk with hk
  refine ⟨hr, ?_⟩
  by_cases hd : s.rxState = .dispatch
  · rw [if_neg (by simpa using hd)] at hk
    by_cases h5 : v = ProtoError.unimplementedCommand.code
    · rw [if_pos h5] at hk
      exact .inr (.inl ⟨hd, h5, hk.symm⟩)
    · rw [if_neg h5] at hk
      have h5' : v ≠ -5 := h5
      by_cases h4 : v = ProtoError.noMemory.code ∨ v = ProtoError.stuffedFrameTooLong.code
          ∨ v = ProtoError.commandTooLong.code ∨ v = ProtoError.incorrectParamSize.code
      · have h4' : v = -1 ∨ v = -2 ∨ v = -3 ∨ v = -4 := h4
        rw [if_pos h4] at hk
        exact .inr (.inr (.inl ⟨hd, by omega, by omega, hk.symm⟩))
      · have h4' : ¬ (v = -1 ∨ v = -2 ∨ v = -3 ∨ v = -4) := h4
        rw [if_neg h4] at hk
        exact .inr (.inr (.inr ⟨hd, by omega, hk.symm⟩))
  · rw [if_pos hd] at hk
    exact .inl ⟨hd, hk.symm⟩

theorem execRxReplyEnd_cases {s t : State} (h : execRxReplyEnd s = .next t) :
    s.running = true ∧
      ((s.rxState = .reply ∧ ∃ v, s.rxe.resp = some v
        ∧ t = { s with
                  diagHist := if v < 0 then s.diagHist ++ [v] else s.diagHist
                  rxe := { s.rxe with resp := none }
                  rxState := .seek }) ∨ t = s) := by
  unfold execRxReplyEnd at h
  obtain ⟨hr, ⟨hg, hk⟩ | ⟨-, hk⟩⟩ := whenEnabled_eq_next.mp h
  · simp only [rxReplyEndGuard, Bool.and_eq_true, decide_eq_true_eq] at hg
    obtain ⟨v, hv⟩ := Option.isSome_iff_exists.mp hg.2
    injection hk with hk
    exact ⟨hr, .inl ⟨hg.1, v, hv, by rw [← hk, hv]⟩⟩
  · exact ⟨hr, .inr hk⟩

/-! ## The transmit engine and its arbiter -/

theorem execSendReq_cases {s t : State} {p : Nat} {cmd : Byte} {param : List Byte}
    (h : execSendReq p cmd param s = .next t) :
    s.running = true ∧
      ((s.profile.numPorts ≤ p ∧ t = s.refuse .badPort)
      ∨ (p < s.profile.numPorts ∧ s.initDone = false ∧ t = s.fail .sendBeforeInit)
      ∨ (p < s.profile.numPorts ∧ s.initDone = true ∧ (s.slot (.ext p)).pst ≠ .idle ∧ t = s.fail .portBusy)
      ∨ (p < s.profile.numPorts ∧ s.initDone = true ∧ (s.slot (.ext p)).pst = .idle
          ∧ t = s.setSlot (.ext p) { pst := .waiting, req := { cmd := cmd, param := param }, resp := none })) := by
  unfold execSendReq at h
  obtain ⟨hr, hk⟩ := whenRunning_eq_next.mp h
  injection hk with hk
  refine ⟨hr, ?_⟩
  by_cases hp : s.profile.numPorts ≤ p
  · rw [if_pos hp] at hk
    exact .inl ⟨hp, hk.symm⟩
  · rw [if_neg hp] at hk
    have hp' : p < s.profile.numPorts := by omega
    cases hi : s.initDone with
    | false =>
      rw [if_pos hi] at hk
      exact .inr (.inl ⟨hp', rfl, hk.symm⟩)
    | true =>
      rw [if_neg (by simp [hi])] at hk
      by_cases hs : (s.slot (.ext p)).pst = .idle
      · rw [if_neg (by simpa using hs)] at hk
        exact .inr (.inr (.inr ⟨hp', rfl, hs, hk.symm⟩))
      · rw [if_pos hs] at hk
        exact .inr (.inr (.inl ⟨hp', rfl, hs, hk.symm⟩))

theorem execTxGrant_cases {s t : State} {r : Requester} (h : execTxGrant r s = .next t) :
    s.running = true ∧
      ((s.lock = .free ∧ inReq s.profile r = true ∧ (s.slot r).pst = .waiting
        ∧ t = { s with lock := .owned r, txPhase := .build }.setSlot r { s.slot r with pst := .active }) ∨ t = s) := by
  unfold execTxGrant at h
  obtain ⟨hr, ⟨hg, hk⟩ | ⟨-, hk⟩⟩ := whenEnabled_eq_next.mp h
  · simp only [txGrantGuard, isWaiter, Bool.and_eq_true, decide_eq_true_eq] at hg
    injection hk with hk
    exact ⟨hr, .inl ⟨hg.1, hg.2.1, hg.2.2, hk.symm⟩⟩
  · exact ⟨hr, .inr hk⟩

theorem State.holder_eq_some {s : State} {r : Requester} : s.holder = some r ↔ s.lock = .owned r := by
  unfold State.holder
  cases s.lock <;> simp

/-- TX_BUILD: the release with the first error, or the frame in TXB. -/
theorem buildFor_cases (s : State) (r : Requester) :
    (∃ e, frameOf s.profile (s.slot r).req.cmd (s.slot r).req.param = .error e ∧ buildFor s r = s.release r e.code)
    ∨ ∃ f m, frameOf s.profile (s.slot r).req.cmd (s.slot r).req.param = .ok f
        ∧ memWriteList s.profile.txbSize s.txBuf 0 f = .ok m
        ∧ buildFor s r = { s with txBuf := m, txLen := f.length, txIdx := 0, txPhase := .emit } := by
  unfold buildFor frameOf
  cases he : encodeMessage s.profile (s.slot r).req.cmd (s.slot r).req.param with
  | error e => exact .inl ⟨e, rfl, rfl⟩
  | ok body =>
    simp only []
    cases hs : stuffAndChecksum s.profile body with
    | error e => exact .inl ⟨e, rfl, rfl⟩
    | ok f =>
      have hf : frameOf s.profile (s.slot r).req.cmd (s.slot r).req.param = .ok f := by
        simp only [frameOf, he, hs]
      have hle := frameOf_length_le hf
      obtain ⟨m, hm⟩ := memWriteList_of_fits (size := s.profile.txbSize) f s.txBuf (i := 0) (by omega)
      exact .inr ⟨f, m, rfl, hm, by simp only [hm]⟩

theorem execTxBuild_cases {s t : State} (h : execTxBuild s = .next t) :
    s.running = true ∧
      ((s.txPhase = .build ∧ ∃ r, s.lock = .owned r ∧ t = buildFor s r) ∨ t = s) := by
  unfold execTxBuild at h
  obtain ⟨hr, ⟨hg, hk⟩ | ⟨-, hk⟩⟩ := whenEnabled_eq_next.mp h
  · simp only [txBuildGuard, Bool.and_eq_true, decide_eq_true_eq] at hg
    obtain ⟨r, hh⟩ := Option.isSome_iff_exists.mp hg.2
    injection hk with hk
    exact ⟨hr, .inl ⟨hg.1, r, State.holder_eq_some.mp hh, by rw [← hk, hh]⟩⟩
  · exact ⟨hr, .inr hk⟩

theorem execTxEmit_cases {s t : State} (h : execTxEmit s = .next t) :
    s.running = true ∧
      ((s.txPhase = .emit ∧ s.txIdx < s.txLen ∧ (∃ r, s.lock = .owned r) ∧
          ((∃ f, memRead s.profile.txbSize s.txBuf s.txIdx = .error f ∧ t = s.fail f)
          ∨ ∃ b, memRead s.profile.txbSize s.txBuf s.txIdx = .ok b
              ∧ t = { s with outHist := s.outHist ++ [b], txIdx := s.txIdx + 1 })) ∨ t = s) := by
  unfold execTxEmit at h
  obtain ⟨hr, ⟨hg, hk⟩ | ⟨-, hk⟩⟩ := whenEnabled_eq_next.mp h
  · simp only [txEmitGuard, Bool.and_eq_true, decide_eq_true_eq] at hg
    obtain ⟨r, hh⟩ := Option.isSome_iff_exists.mp hg.2
    injection hk with hk
    refine ⟨hr, .inl ⟨hg.1.1, hg.1.2, ⟨r, State.holder_eq_some.mp hh⟩, ?_⟩⟩
    cases hm : memRead s.profile.txbSize s.txBuf s.txIdx with
    | error f => exact .inl ⟨f, rfl, by simpa only [hm] using hk.symm⟩
    | ok b => exact .inr ⟨b, rfl, by rw [← hk, hm]; rfl⟩
  · exact ⟨hr, .inr hk⟩

theorem execTxAbort_cases {s t : State} (h : execTxAbort s = .next t) :
    s.running = true ∧
      ((s.txPhase = .emit ∧ s.txIdx < s.txLen ∧ ∃ r, s.lock = .owned r ∧ t = s.release r (-9)) ∨ t = s) := by
  unfold execTxAbort at h
  obtain ⟨hr, ⟨hg, hk⟩ | ⟨-, hk⟩⟩ := whenEnabled_eq_next.mp h
  · simp only [txAbortGuard, Bool.and_eq_true, decide_eq_true_eq] at hg
    obtain ⟨r, hh⟩ := Option.isSome_iff_exists.mp hg.2
    injection hk with hk
    exact ⟨hr, .inl ⟨hg.1.1, hg.1.2, r, State.holder_eq_some.mp hh, by rw [← hk, hh]; rfl⟩⟩
  · exact ⟨hr, .inr hk⟩

theorem execTxComplete_cases {s t : State} (h : execTxComplete s = .next t) :
    s.running = true ∧
      ((s.txPhase = .emit ∧ s.txIdx = s.txLen ∧ ∃ r, s.lock = .owned r ∧ t = s.release r (s.txLen : Int)) ∨ t = s) := by
  unfold execTxComplete at h
  obtain ⟨hr, ⟨hg, hk⟩ | ⟨-, hk⟩⟩ := whenEnabled_eq_next.mp h
  · simp only [txCompleteGuard, Bool.and_eq_true, decide_eq_true_eq] at hg
    obtain ⟨r, hh⟩ := Option.isSome_iff_exists.mp hg.2
    injection hk with hk
    exact ⟨hr, .inl ⟨hg.1.1, hg.1.2, r, State.holder_eq_some.mp hh, by rw [← hk, hh]⟩⟩
  · exact ⟨hr, .inr hk⟩

end Sys2Proof.Machine
end

