-- ==== Sys2Proof/Laws/PerInstr.lean ====
section
/-! SUPPORT. Per-operation families over the syntax. `TagListed` (30_encoding.md R81, R82): the word of an operation
carries the operation's own tag, and that tag is one of the 28 that R81 lists. One lemma per constructor. -/

namespace Sys2Proof.Laws.TagListed

/-- The word of `i` carries `i`'s tag, and the tag is listed. -/
def Statement (i : Instr) : Prop :=
  (encode i).tag = i.tag ∧
    i.tag.toNat ∈ [0x00, 0x01, 0x02, 0x10, 0x11, 0x12, 0x13, 0x14, 0x15, 0x16, 0x17, 0x18, 0x20, 0x21, 0x22,
      0x30, 0x31, 0x32, 0x33, 0x34, 0x35, 0x36, 0x40, 0x41, 0x42, 0x43, 0x44, 0x45]

theorem reset : Statement .reset :=
  ⟨rfl, of_decide_eq_true rfl⟩

theorem init (stackSize priority : Nat) (draw : InitDraw) : Statement (.init stackSize priority draw) :=
  ⟨rfl, of_decide_eq_true rfl⟩

theorem statusRead : Statement .statusRead :=
  ⟨rfl, of_decide_eq_true rfl⟩

theorem delimClass (b : Byte) : Statement (.delimClass b) :=
  ⟨rfl, of_decide_eq_true rfl⟩

theorem chkGen (body : List Byte) : Statement (.chkGen body) :=
  ⟨rfl, of_decide_eq_true rfl⟩

theorem chkVerify (raw : List Byte) : Statement (.chkVerify raw) :=
  ⟨rfl, of_decide_eq_true rfl⟩

theorem stuffByte (b : Byte) : Statement (.stuffByte b) :=
  ⟨rfl, of_decide_eq_true rfl⟩

theorem stuff (x : List Byte) : Statement (.stuff x) :=
  ⟨rfl, of_decide_eq_true rfl⟩

theorem destuff (s : List Byte) : Statement (.destuff s) :=
  ⟨rfl, of_decide_eq_true rfl⟩

theorem delimWrap (s : List Byte) : Statement (.delimWrap s) :=
  ⟨rfl, of_decide_eq_true rfl⟩

theorem stuffAndChecksum (body : List Byte) : Statement (.stuffAndChecksum body) :=
  ⟨rfl, of_decide_eq_true rfl⟩

theorem destuffAndVerify (s : List Byte) : Statement (.destuffAndVerify s) :=
  ⟨rfl, of_decide_eq_true rfl⟩

theorem encode (cmd : Byte) (param : List Byte) : Statement (.encode cmd param) :=
  ⟨rfl, of_decide_eq_true rfl⟩

theorem decodeCmd (raw : List Byte) : Statement (.decodeCmd raw) :=
  ⟨rfl, of_decide_eq_true rfl⟩

theorem decodeParam (raw : List Byte) (totalLen : Nat) : Statement (.decodeParam raw totalLen) :=
  ⟨rfl, of_decide_eq_true rfl⟩

theorem rxSeek (b : Byte) : Statement (.rxSeek b) :=
  ⟨rfl, of_decide_eq_true rfl⟩

theorem rxAccum (b : Byte) : Statement (.rxAccum b) :=
  ⟨rfl, of_decide_eq_true rfl⟩

theorem rxOverflow (b : Byte) : Statement (.rxOverflow b) :=
  ⟨rfl, of_decide_eq_true rfl⟩

theorem rxStop (b : Byte) : Statement (.rxStop b) :=
  ⟨rfl, of_decide_eq_true rfl⟩

theorem hParamRead (i : Nat) : Statement (.hParamRead i) :=
  ⟨rfl, of_decide_eq_true rfl⟩

theorem hReturn (s : Int) : Statement (.hReturn s) :=
  ⟨rfl, of_decide_eq_true rfl⟩

theorem rxReplyEnd : Statement .rxReplyEnd :=
  ⟨rfl, of_decide_eq_true rfl⟩

theorem sendReq (p : Nat) (cmd : Byte) (param : List Byte) : Statement (.sendReq p cmd param) :=
  ⟨rfl, of_decide_eq_true rfl⟩

theorem txGrant (r : Requester) : Statement (.txGrant r) :=
  ⟨rfl, of_decide_eq_true rfl⟩

theorem txBuild : Statement .txBuild :=
  ⟨rfl, of_decide_eq_true rfl⟩

theorem txEmit : Statement .txEmit :=
  ⟨rfl, of_decide_eq_true rfl⟩

theorem txAbort : Statement .txAbort :=
  ⟨rfl, of_decide_eq_true rfl⟩

theorem txComplete : Statement .txComplete :=
  ⟨rfl, of_decide_eq_true rfl⟩

end Sys2Proof.Laws.TagListed
end

