-- ==== Sys2Proof/Laws/Transcript.lean ====
section
/-! SUPPORT. How a transcript runs (30_encoding.md R83): a line that is enabled, a line that waits, and a run in two
parts. -/

namespace Sys2Proof.Machine

/-- A line is enabled for exactly the operation it names, under that operation's guard. -/
theorem Line.enabled_eq_some {l : Line} {s : State} {i : Instr} :
    l.enabled s = some i ↔ l.operation s = some i ∧ guardOf i s = true := by
  simp [Line.enabled, Option.filter_eq_some_iff]

/-- An enabled line takes its operation at the state itself: offering and taking leave the script as it was. -/
theorem runLine_of_exec {l : Line} {s t : State} {i : Instr} (hen : l.enabled s = some i)
    (hdec : decode (encode i) = .ok i) (he : exec i s = .next t) :
    runLine l s = .next { t with launched := true } := by
  have hg : guardOf i (s.offer (encode i)) = true := by
    rw [← (Line.enabled_eq_some.mp hen).2]
    cases i <;> rfl
  have hc : (s.offer (encode i)).consume = s := rfl
  have hs : (s.offer (encode i)).script = encode i :: s.script := rfl
  simp only [runLine, hen, step, takeNext, hs, hdec, takeOperation, hg, if_true, hc, he, retire]

/-- In an unmarked state a line that is not enabled changes nothing. -/
theorem runLine_of_not_enabled {l : Line} {s : State} (hen : l.enabled s = none) (h : s.running = true) :
    runLine l s = .next s := by
  simp only [runLine, hen]
  exact whenRunning_of_running _ h

@[simp] theorem runLines_nil (s : State) : runLines [] s = ([], .next s) := rfl

/-- A taken line leaves the run to the lines after it. -/
theorem runLines_cons {l : Line} {rest : List Line} {s t : State} {i : Instr} (hen : l.enabled s = some i)
    (h : runLine l s = .next t) : runLines (l :: rest) s = runLines rest t := by
  simp only [runLines, hen, h]

/-- A line that is not enabled waits with every line behind it, and the state is unchanged. -/
theorem runLines_of_not_enabled {l : Line} {rest : List Line} {s : State} (hen : l.enabled s = none)
    (h : s.running = true) : runLines (l :: rest) s = (l :: rest, .next s) := by
  simp only [runLines, hen, runLine_of_not_enabled hen h]

/-- After a part that is taken whole, the run is the run of the rest. -/
theorem runLines_append {a b : List Line} {s t : State} (h : runLines a s = ([], .next t)) :
    runLines (a ++ b) s = runLines b t := by
  induction a generalizing s with
  | nil =>
    injection h with _ h
    injection h with h
    exact h ▸ rfl
  | cons l a ih =>
    simp only [runLines] at h
    cases hen : l.enabled s with
    | none => simp [hen] at h
    | some i =>
      cases hl : runLine l s with
      | next u =>
        simp only [hen, hl] at h
        rw [List.cons_append, runLines_cons hen hl]
        exact ih h
      | fault f => simp [hen, hl] at h
      | refused r => simp [hen, hl] at h

/-- `xmit` expands exactly where its grant is enabled and its request builds a frame. -/
theorem xmit_eq_some {s : State} {r : Requester} {ls : List Line} :
    xmit s r = some ls ↔
      s.running = true ∧ txGrantGuard s r = true
        ∧ ∃ f, frameOf s.profile (s.slot r).req.cmd (s.slot r).req.param = .ok f ∧ ls = xmitLines r f.length := by
  unfold xmit
  cases hr : s.running <;> cases hg : txGrantGuard s r <;> simp
  cases hf : frameOf s.profile (s.slot r).req.cmd (s.slot r).req.param <;> simp [eq_comm]

/-- `sendx` expands exactly where `xmit` does in the state that its `send` leaves. -/
theorem sendx_eq_some {s : State} {k : Nat} {cmd : Byte} {param : List Byte} {ls : List Line} :
    sendx s k cmd param = some ls ↔
      ∃ t, exec (.sendReq k cmd param) s = .next t
        ∧ ∃ rest, xmit t (.ext k) = some rest ∧ ls = .send k cmd param :: rest := by
  unfold sendx
  cases exec (.sendReq k cmd param) s with
  | next u =>
    rw [Option.map_eq_some_iff]
    constructor
    · rintro ⟨rest, hx, rfl⟩
      exact ⟨u, rfl, rest, hx, rfl⟩
    · rintro ⟨t, ht, rest, hx, rfl⟩
      injection ht with ht
      exact ⟨rest, ht ▸ hx, rfl⟩
  | fault f => simp
  | refused r => simp

end Sys2Proof.Machine
end

