-- ==== Sys2Proof/Tests/Slice0.lean ====
section
/-! SUPPORT. Tests. Every expected value is the spec's: the tags of 30_encoding.md R81, the examples of the rules, and the
vectors of 95_test_vectors.md (named in each comment). The witnesses show, for every statement with hypotheses, states and
operands that meet them. -/

namespace Sys2Proof.Tests

open Sys2Proof.Machine

/-! ## Small states -/

/-- A field of the next state; none where the operation stops. -/
def got {α : Type} (f : State → α) (o : Out) : Option α :=
  match o with
  | .next t => some (f t)
  | .fault _ => none
  | .refused _ => none

/-- The outcome is a next state. -/
def isNext (o : Out) : Bool := (got (fun _ => ()) o).isSome

/-- The outcome is a stop with the fault `f`. -/
def isFault (f : Fault) (o : Out) : Bool :=
  match o with
  | .next _ => false
  | .fault g => decide (g = f)
  | .refused _ => false

/-- The outcome is a stop with the refusal `r`. -/
def isRefused (r : Refusal) (o : Out) : Bool :=
  match o with
  | .next _ => false
  | .fault _ => false
  | .refused g => decide (g = r)

/-- The bytes `x` in cells 0, 1, ... -/
def cells (x : List Byte) : Memory := (List.range x.length).zip x

/-- After RESET and INIT -> ok. -/
def seekS : State := { State.reset with initDone := true, rxState := .seek, launched := true }

/-- Accumulating, with the stuffed bytes `x` stored. -/
def accumS (x : List Byte) : State := { seekS with rxState := .accum, rxBuf := cells x, rxCnt := x.length }

/-- In the handler's call for the payload `x` under P0. -/
def dispS (x : List Byte) : State :=
  { seekS with rxState := .dispatch, rxBuf := cells x, rxCnt := x.length, dispCmd := x.headD 0, dispLen := x.length - 2 }

/-- Waiting for the reply, with the response `v`. -/
def replyS (v : Option Int) : State :=
  { seekS with
    rxState := .reply
    rxe := { pst := if v.isSome then .idle else .waiting, req := { cmd := 0xFF, param := [0x07] }, resp := v } }

/-- EXT(0) with `pst` and the request (01, param). -/
def portS (pst : Pst) (param : List Byte) : State :=
  { seekS with ports := [{ pst := pst, req := { cmd := 0x01, param := param }, resp := none }, Slot.reset] }

/-- EXT(0) holds the lock, before TX_BUILD. -/
def buildS (param : List Byte) : State :=
  { portS .active param with lock := .owned (.ext 0), txPhase := .build }

/-- EXT(0) emits the frame of (01, [AA BB]); `k` bytes are out. -/
def emitS (k : Nat) : State :=
  { portS .active [0xAA, 0xBB] with
    lock := .owned (.ext 0), txPhase := .emit, txBuf := cells [0x02, 0x01, 0xAA, 0xBB, 0x66, 0x03], txLen := 6, txIdx := k,
    outHist := [0x02, 0x01, 0xAA, 0xBB, 0x66, 0x03].take k }

/-- P0 with MAX_FRAME_SIZE = 4, so MAX_PARAM = 2: the boundary cases, small. -/
def p4 : Profile := { Profile.p0 with maxFrameSize := 4 }

/-- A profile with START = STOP: ill-formed (R9 a). -/
def badP : Profile := { Profile.p0 with stop := 0x02 }

def faulted : State := { seekS with fault := some .portBusy }

def refusedS : State := { seekS with refused := some .badPort }

/-! ## Decoding: every tag of R81, written out bit by bit -/

theorem test_decode_control :
    decode { tag := 0b00000000 } = .ok .reset
    ∧ decode { tag := 0b00000001, nat := 512, nat2 := 3 } = .ok (.init 512 3 .ok)
    ∧ decode { tag := 0b00000010 } = .ok .statusRead := by
  refine ⟨rfl, rfl, rfl⟩

theorem test_decode_codec :
    decode { tag := 0b00010000, byte := 0x03 } = .ok (.delimClass 0x03)
    ∧ decode { tag := 0b00010001, bytes := [0x01] } = .ok (.chkGen [0x01])
    ∧ decode { tag := 0b00010010, bytes := [0x01] } = .ok (.chkVerify [0x01])
    ∧ decode { tag := 0b00010011, byte := 0x10 } = .ok (.stuffByte 0x10)
    ∧ decode { tag := 0b00010100, bytes := [0x01] } = .ok (.stuff [0x01])
    ∧ decode { tag := 0b00010101, bytes := [0x01] } = .ok (.destuff [0x01])
    ∧ decode { tag := 0b00010110, bytes := [0x01] } = .ok (.delimWrap [0x01])
    ∧ decode { tag := 0b00010111, bytes := [0x01] } = .ok (.stuffAndChecksum [0x01])
    ∧ decode { tag := 0b00011000, bytes := [0x01] } = .ok (.destuffAndVerify [0x01]) := by
  refine ⟨rfl, rfl, rfl, rfl, rfl, rfl, rfl, rfl, rfl⟩

theorem test_decode_message :
    decode { tag := 0b00100000, byte := 0x01, bytes := [0xAA] } = .ok (.encode 0x01 [0xAA])
    ∧ decode { tag := 0b00100001, bytes := [0x01] } = .ok (.decodeCmd [0x01])
    ∧ decode { tag := 0b00100010, bytes := [0x01], nat := 1 } = .ok (.decodeParam [0x01] 1) := by
  refine ⟨rfl, rfl, rfl⟩

theorem test_decode_receive :
    decode { tag := 0b00110000, byte := 0x02 } = .ok (.rxSeek 0x02)
    ∧ decode { tag := 0b00110001, byte := 0x01 } = .ok (.rxAccum 0x01)
    ∧ decode { tag := 0b00110010, byte := 0x01 } = .ok (.rxOverflow 0x01)
    ∧ decode { tag := 0b00110011, byte := 0x03 } = .ok (.rxStop 0x03)
    ∧ decode { tag := 0b00110100, nat := 7 } = .ok (.hParamRead 7)
    ∧ decode { tag := 0b00110101, status := -5 } = .ok (.hReturn (-5))
    ∧ decode { tag := 0b00110110 } = .ok .rxReplyEnd := by
  refine ⟨rfl, rfl, rfl, rfl, rfl, rfl, rfl⟩

theorem test_decode_transmit :
    decode { tag := 0b01000000, nat := 1, byte := 0x01, bytes := [0xAA] } = .ok (.sendReq 1 0x01 [0xAA])
    ∧ decode { tag := 0b01000001, requester := .rxe } = .ok (.txGrant .rxe)
    ∧ decode { tag := 0b01000010 } = .ok .txBuild
    ∧ decode { tag := 0b01000011 } = .ok .txEmit
    ∧ decode { tag := 0b01000100 } = .ok .txAbort
    ∧ decode { tag := 0b01000101 } = .ok .txComplete := by
  refine ⟨rfl, rfl, rfl, rfl, rfl, rfl⟩

/-- The ends of the reserved ranges of R82. -/
theorem test_decode_reserved :
    ([0x03, 0x0F, 0x19, 0x1F, 0x23, 0x2F, 0x37, 0x3F, 0x46, 0x4F, 0x50, 0xFF] : List Byte).all
      (fun tag => match decode { tag := tag } with | .ok _ => false | .error e => decide (e = .reservedOp tag)) = true := by
  decide

/-- The table's words: bit 0 is the least significant bit of the tag. -/
theorem test_decodeTableWord :
    decodeTableWord 8 0x45 = some .txComplete ∧ decodeTableWord 8 0x30 = some (.rxSeek 0) ∧ decodeTableWord 8 0x46 = none := by
  decide

/-- The next step runs a placed word. STATUS_READ after RESET is (0, DISABLED, FREE) (R172). -/
theorem test_withFetchWord :
    got (·.ret) (step (State.reset.withFetchWord 8 0x02)) = some (some (.status 0 .disabled .free))
    ∧ got (·.refused) (step (State.reset.withFetchWord 8 0x50)) = some (some .reservedOp) := by
  decide

/-! ## WellFormed: one ill-formed operation for each check -/

theorem test_wf_decodeParam : Instr.WellFormed .p0 (.decodeParam [0x05] 2) = false := by decide
theorem test_wf_rxAccum : Instr.WellFormed .p0 (.rxAccum 0x03) = false := by decide
theorem test_wf_rxOverflow : Instr.WellFormed .p0 (.rxOverflow 0x03) = false := by decide
theorem test_wf_rxStop : Instr.WellFormed .p0 (.rxStop 0x02) = false := by decide
theorem test_wf_hReturn :
    Instr.WellFormed .p0 (.hReturn 2147483648) = false ∧ Instr.WellFormed .p0 (.hReturn (-2147483649)) = false := by decide
theorem test_wf_sendReq : Instr.WellFormed .p0 (.sendReq 2 0x01 []) = false := by decide
theorem test_wf_txGrant : Instr.WellFormed .p0 (.txGrant (.ext 2)) = false := by decide

/-- WF(P): P0 is well formed; each condition (a) to (g) of R9 fails for some profile. -/
theorem test_profile_wf :
    Profile.p0.wf = true ∧ badP.wf = false
    ∧ Profile.wf { Profile.p0 with escStop := 0x10 } = false
    ∧ Profile.wf { Profile.p0 with escStop := 0x22 } = false
    ∧ Profile.wf { Profile.p0 with chkW := 2 } = false
    ∧ Profile.wf { Profile.p0 with chkW := 0, chk := .custom 0 } = false
    ∧ Profile.wf { Profile.p0 with maxFrameSize := 1 } = false
    ∧ Profile.wf { Profile.p0 with numPorts := 0 } = false := by decide

/-! ## One step of each operation -/

/-- R200: RESET launches; R201 with an ill-formed profile. -/
theorem test_reset :
    got (fun t => (t.initDone, t.rxState, t.errCnt, t.lock)) (exec .reset { emitS 2 with launched := false, errCnt := 9 })
      = some (false, .disabled, 0, .free)
    ∧ got (·.refused) (exec .reset { State.reset with profile := badP }) = some (some .badProfile)
    ∧ got (·.refused) (exec .reset seekS) = some (some .resetWhileRunning) := by decide

/-- R170. -/
theorem test_init :
    got (fun t => (t.initDone, t.rxState, t.ret)) (exec (.init 512 3 .ok) State.reset) = some (true, .seek, some (.code 0))
    ∧ got (fun t => (t.initDone, t.ret)) (exec (.init 512 3 .fail) State.reset) = some (false, some (.code (-10)))
    ∧ got (·.fault) (exec (.init 512 3 .ok) seekS) = some (some .doubleInit) := by decide

/-- R172: in a faulted state too. -/
theorem test_statusRead :
    got (·.ret) (exec .statusRead { faulted with errCnt := 0xFFFFFFFF }) = some (some (.status 0xFFFFFFFF .seek .free)) := by
  decide

/-- R101's examples. -/
theorem test_delimClass :
    got (·.ret) (exec (.delimClass 0x03) seekS) = some (some (.delim .stop))
    ∧ got (·.ret) (exec (.delimClass 0x23) seekS) = some (some (.delim .data)) := by decide

/-- R103's worked values. -/
theorem test_chkGen :
    got (·.ret) (exec (.chkGen [0x01, 0xAA, 0xBB]) seekS) = some (some (.bytes [0x66]))
    ∧ got (·.ret) (exec (.chkGen [0xFF, 0x01]) seekS) = some (some (.bytes [0x00])) := by decide

/-- R104's examples. -/
theorem test_chkVerify :
    got (·.ret) (exec (.chkVerify [0x01, 0xAA, 0xBB, 0x66]) seekS) = some (some (.bool true))
    ∧ got (·.ret) (exec (.chkVerify [0x01, 0xAA, 0xBB, 0x67]) seekS) = some (some (.bool false)) := by decide

/-- R105's examples. -/
theorem test_stuffByte :
    got (·.ret) (exec (.stuffByte 0x10) seekS) = some (some (.bytes [0x10, 0x30]))
    ∧ got (·.ret) (exec (.stuffByte 0x30) seekS) = some (some (.bytes [0x30])) := by decide

/-- R106's example. -/
theorem test_stuff :
    got (·.ret) (exec (.stuff [0x10, 0x02, 0x03, 0x15]) seekS)
      = some (some (.bytes [0x10, 0x30, 0x10, 0x22, 0x10, 0x23, 0x15])) := by decide

/-- R107's examples, with [ESC, ESC]. -/
theorem test_destuff :
    got (·.ret) (exec (.destuff [0x10, 0x30, 0x10, 0x22, 0x10, 0x23, 0x15]) seekS)
      = some (some (.bytes [0x10, 0x02, 0x03, 0x15]))
    ∧ got (·.ret) (exec (.destuff [0x01, 0x10]) seekS) = some (some .malformed)
    ∧ got (·.ret) (exec (.destuff [0x10, 0x10]) seekS) = some (some .malformed) := by decide

/-- R108's example. -/
theorem test_delimWrap :
    got (·.ret) (exec (.delimWrap [0x01, 0xAA, 0xBB, 0x66]) seekS)
      = some (some (.bytes [0x02, 0x01, 0xAA, 0xBB, 0x66, 0x03])) := by decide

/-- R109's example; with MAX_FRAME_SIZE = 4, a body that fits unstuffed fails through its checksum 03 alone. -/
theorem test_stuffAndChecksum :
    got (·.ret) (exec (.stuffAndChecksum [0x01, 0xAA, 0xBB]) seekS)
      = some (some (.bytes [0x02, 0x01, 0xAA, 0xBB, 0x66, 0x03]))
    ∧ got (·.ret) (exec (.stuffAndChecksum [0x01, 0x01, 0x01]) { seekS with profile := p4 })
      = some (some (.error .stuffedFrameTooLong)) := by decide

/-- R110's examples and corner case. -/
theorem test_destuffAndVerify :
    got (·.ret) (exec (.destuffAndVerify [0x01, 0xAA, 0xBB, 0x66]) seekS) = some (some (.bytes [0x01, 0xAA, 0xBB, 0x66]))
    ∧ got (·.ret) (exec (.destuffAndVerify [0x01, 0xAA, 0xBB, 0x67]) seekS) = some (some (.error .badChecksum))
    ∧ got (·.ret) (exec (.destuffAndVerify [0x10, 0x22]) seekS) = some (some (.error .badSize)) := by decide

/-- R121's examples. -/
theorem test_encode :
    got (·.ret) (exec (.encode 0x01 [0xAA, 0xBB]) seekS) = some (some (.bytes [0x01, 0xAA, 0xBB]))
    ∧ got (·.ret) (exec (.encode 0x01 (List.replicate 63 0x00)) seekS) = some (some (.error .commandTooLong)) := by decide

/-- R122's example; the empty operand. -/
theorem test_decodeCmd :
    got (·.ret) (exec (.decodeCmd [0x10, 0x02, 0x03, 0x15]) seekS) = some (some (.byte 0x10))
    ∧ got (·.fault) (exec (.decodeCmd []) seekS) = some (some .unwrittenRead) := by decide

/-- R123's examples. -/
theorem test_decodeParam :
    got (·.ret) (exec (.decodeParam [0x01, 0xAA, 0xBB, 0x66] 4) seekS) = some (some (.view 1 2))
    ∧ got (·.ret) (exec (.decodeParam [0x05] 1) seekS) = some (some (.error .incorrectParamSize)) := by decide

/-- R131's example. -/
theorem test_rxSeek :
    got (fun t => (t.rxState, t.rxCnt)) (exec (.rxSeek 0x02) { seekS with rxCnt := 7 }) = some (.accum, 0)
    ∧ got (·.rxState) (exec (.rxSeek 0x55) seekS) = some .seek := by decide

/-- R132's example; START is stored as an ordinary byte. -/
theorem test_rxAccum :
    got (fun t => (t.rxBuf, t.rxCnt)) (exec (.rxAccum 0x01) (accumS [])) = some ([(0, 0x01)], 1)
    ∧ got (fun t => (t.rxBuf, t.rxState)) (exec (.rxAccum 0x02) (accumS [0x01])) = some ([(0, 0x01), (1, 0x02)], .accum) := by
  decide

/-- R133's example with MAX_FRAME_SIZE = 8. -/
theorem test_rxOverflow :
    got (fun t => (t.errCnt, t.diagHist, t.rxState, t.rxCnt))
        (exec (.rxOverflow 0x11) { accumS (List.replicate 8 0x11) with profile := { Profile.p0 with maxFrameSize := 8 } })
      = some (1, [-6], .seek, 8) := by decide

/-- R134's example; a stuffed body is destuffed in place, stale bytes kept (R137's example body). -/
theorem test_rxStop :
    got (fun t => (t.rxState, t.dispCmd, t.dispLen)) (exec (.rxStop 0x03) (accumS [0x01, 0xAA, 0xBB, 0x66]))
      = some (.dispatch, 0x01, 2)
    ∧ got (·.rxBuf) (exec (.rxStop 0x03) (accumS [0x10, 0x30, 0x10, 0x22, 0x10, 0x23, 0x15]))
      = some (cells [0x10, 0x02, 0x03, 0x15, 0x10, 0x23, 0x15]) := by decide

/-- R185: each of the four drops. -/
theorem test_rxStop_drops :
    got (fun t => (t.diagHist, t.rxState)) (exec (.rxStop 0x03) (accumS [])) = some ([-7], .seek)
    ∧ got (fun t => (t.diagHist, t.rxState)) (exec (.rxStop 0x03) (accumS [0x01, 0x10])) = some ([-8], .seek)
    ∧ got (fun t => (t.diagHist, t.rxState)) (exec (.rxStop 0x03) (accumS [0x10, 0x22])) = some ([-7], .seek)
    ∧ got (fun t => (t.diagHist, t.errCnt)) (exec (.rxStop 0x03) { accumS [0x01, 0x67] with errCnt := 0xFFFFFFFF })
      = some ([-8], 0) := by decide

/-- R137's example, and both faults. -/
theorem test_hParamRead :
    got (·.ret) (exec (.hParamRead 0) (dispS [0x10, 0x02, 0x03, 0x15])) = some (some (.byte 0x02))
    ∧ got (·.ret) (exec (.hParamRead 1) (dispS [0x10, 0x02, 0x03, 0x15])) = some (some (.byte 0x03))
    ∧ got (·.fault) (exec (.hParamRead 2) (dispS [0x10, 0x02, 0x03, 0x15])) = some (some .paramViewOutOfRange)
    ∧ got (·.fault) (exec (.hParamRead 0) seekS) = some (some .paramViewExpired) := by decide

/-- R138's example. -/
theorem test_hReturn_reject :
    got (fun t => (t.errCnt, t.rejCmd, t.rxState, t.rxe)) (exec (.hReturn (-5)) (dispS [0x07, 0x07]))
      = some (1, 0x07, .reply, { pst := .waiting, req := { cmd := 0xFF, param := [0x07] }, resp := none }) := by decide

/-- R138: a local report, no action, and ReturnWithoutCall. -/
theorem test_hReturn :
    got (fun t => (t.diagHist, t.errCnt, t.rxState)) (exec (.hReturn (-4)) (dispS [0x07, 0x07])) = some ([-4], 0, .seek)
    ∧ got (fun t => (t.diagHist, t.errCnt, t.rxState)) (exec (.hReturn (-6)) (dispS [0x07, 0x07])) = some ([], 0, .seek)
    ∧ got (·.fault) (exec (.hReturn 0) seekS) = some (some .returnWithoutCall) := by decide

/-- R139: a length is not reported, an error is. -/
theorem test_rxReplyEnd :
    got (fun t => (t.diagHist, t.rxState, t.rxe.resp)) (exec .rxReplyEnd (replyS (some 5))) = some ([], .seek, none)
    ∧ got (fun t => (t.diagHist, t.rxState, t.rxe.resp)) (exec .rxReplyEnd (replyS (some (-9)))) = some ([-9], .seek, none) := by
  decide

/-- R151's example, and its misuses in order. -/
theorem test_sendReq :
    got (·.slot (.ext 0)) (exec (.sendReq 0 0x01 [0xAA, 0xBB]) seekS)
      = some { pst := .waiting, req := { cmd := 0x01, param := [0xAA, 0xBB] }, resp := none }
    ∧ got (·.refused) (exec (.sendReq 2 0x01 []) State.reset) = some (some .badPort)
    ∧ got (·.fault) (exec (.sendReq 1 0x01 []) State.reset) = some (some .sendBeforeInit)
    ∧ got (·.fault) (exec (.sendReq 0 0x01 []) (emitS 2)) = some (some .portBusy) := by decide

/-- R152; not while the lock is held. -/
theorem test_txGrant :
    got (fun t => (t.lock, t.txPhase, (t.slot (.ext 0)).pst)) (exec (.txGrant (.ext 0)) (portS .waiting [0xAA]))
      = some (.owned (.ext 0), .build, .active)
    ∧ got (·.lock) (exec (.txGrant .rxe) { emitS 2 with rxe := { Slot.reset with pst := .waiting } })
      = some (.owned (.ext 0)) := by decide

/-- R153's example; CommandTooLong is checked first (R186). -/
theorem test_txBuild :
    got (fun t => (t.txBuf, t.txLen, t.txIdx, t.txPhase)) (exec .txBuild (buildS [0xAA, 0xBB]))
      = some (cells [0x02, 0x01, 0xAA, 0xBB, 0x66, 0x03], 6, 0, .emit)
    ∧ got (fun t => ((t.slot (.ext 0)).resp, t.lock, t.txBuf)) (exec .txBuild { buildS [0x02, 0x02, 0x02] with profile := p4 })
      = some (some (-3), .free, [])
    ∧ got (fun t => ((t.slot (.ext 0)).resp, t.txPhase)) (exec .txBuild { buildS [0x02, 0x02] with profile := p4 })
      = some (some (-2), .idle) := by decide

/-- R154's example. -/
theorem test_txEmit :
    got (fun t => (t.outHist, t.txIdx)) (exec .txEmit (emitS 0)) = some ([0x02], 1)
    ∧ got (fun t => (t.outHist, t.txIdx)) (exec .txEmit (emitS 6)) = some ([0x02, 0x01, 0xAA, 0xBB, 0x66, 0x03], 6) := by
  decide

/-- R155's example. -/
theorem test_txAbort :
    got (fun t => (t.outHist, (t.slot (.ext 0)).resp, t.lock)) (exec .txAbort (emitS 2))
      = some ([0x02, 0x01], some (-9), .free) := by decide

/-- R156's example. -/
theorem test_txComplete :
    got (fun t => ((t.slot (.ext 0)).resp, (t.slot (.ext 0)).pst, t.lock, t.txPhase)) (exec .txComplete (emitS 6))
      = some (some 6, .idle, .free, .idle) := by decide

/-! ## Transcripts -/

/-- V-R18: in DISPATCH and in REPLY no `rx` line is enabled, and the byte stays with CHIN, with the lines behind it. -/
theorem test_transcript_waits :
    runLines [.rx 0x02, .ret 0] (dispS [0x07, 0x07]) = ([.rx 0x02, .ret 0], .next (dispS [0x07, 0x07]))
    ∧ runLines [.rx 0x02] (replyS none) = ([.rx 0x02], .next (replyS none))
    ∧ runLines [.build, .status] seekS = ([.build, .status], .next seekS) :=
  ⟨runLines_of_not_enabled rfl rfl, runLines_of_not_enabled rfl rfl, runLines_of_not_enabled rfl rfl⟩

/-- V-R18: the byte is taken after RXE returns to SEEK. -/
theorem test_transcript_resumes :
    (runLines [.ret 0, .rx 0x02] (dispS [0x07, 0x07])).1 = []
    ∧ got (·.rxState) (runLines [.ret 0, .rx 0x02] (dispS [0x07, 0x07])).2 = some .accum := by decide

/-- V-T11: `sendx p1, 05, []` emits a frame of 4 bytes. V-R15: `xmit rxe` emits 5. -/
theorem test_transcript_xmit :
    sendx seekS 1 0x05 [] = some [.send 1 0x05 [], .grant (.ext 1), .build, .emit, .emit, .emit, .emit, .complete]
    ∧ xmit (replyS none) .rxe = some [.grant .rxe, .build, .emit, .emit, .emit, .emit, .emit, .complete] := by decide

/-- R83: no `xmit` where TX_BUILD does not succeed: an idle requester with a stored request, one outside REQ, a held lock,
a frame that is too long; and no `sendx` on a port that does not exist or is busy. -/
theorem test_transcript_xmit_undefined :
    xmit (portS .idle [0xAA]) (.ext 0) = none ∧ xmit seekS (.ext 2) = none
    ∧ xmit { emitS 2 with rxe := { Slot.reset with pst := .waiting } } .rxe = none
    ∧ xmit { portS .waiting [0x02, 0x02] with profile := p4 } (.ext 0) = none
    ∧ sendx seekS 2 0x05 [] = none ∧ sendx (portS .waiting [0xAA]) 0 0x05 [] = none := by decide

/-! ## Witnesses: states and operands that meet the hypotheses of each statement, clause by clause -/

theorem witness_StuffedBodyHasNoBareDelimiter :
    Profile.p0.wf = true ∧ stuff .p0 [0x01, 0x10] = [0x01] ++ Profile.p0.esc :: [0x30] := by decide

/-- The longest body that fits, under p4. -/
theorem witness_DestuffInvertsStuff :
    p4.wf = true ∧ (stuff p4 (0x01 :: [0x05, 0x06] ++ p4.checksum (0x01 :: [0x05, 0x06]))).length = p4.maxFrameSize := by
  decide

/-- Both ends of the bounds of a successful destuffing. -/
theorem witness_StuffedLengthBounds :
    destuff .p0 [0x10, 0x22, 0x10, 0x30] = some [0x02, 0x10] ∧ destuff .p0 [0x11] = some [0x11] := by decide

theorem witness_DestuffAcceptsExactlyStuffedBodies :
    Profile.p0.wf = true ∧ destuff .p0 [0x10, 0x23] = some [0x03] ∧ [0x10, 0x23] = stuff .p0 [0x03] := by decide

theorem witness_DelimiterInsideBodyIsRejected :
    Profile.p0.wf = true ∧ Profile.p0.start ∈ ([0x02, 0x05] : List Byte) ∧ Profile.p0.stop ∈ ([0x05, 0x03] : List Byte)
    ∧ Profile.p0.minFrame = ([0x05, 0x03] : List Byte).length := by decide

theorem witness_SumCheckDetectsSingleBitFlip :
    chkVerify .p0 [0x05, 0x05] = true ∧ 0 < ([0x05, 0x05] : List Byte).length ∧ 1 < ([0x05, 0x05] : List Byte).length := by
  decide

theorem witness_CodecOperationsReturn :
    seekS.running = true ∧ seekS.profile.chk = .sum8 ∧ seekS.profile.wf = true := by decide

theorem stuff_ne_esc (x : List Byte) : ([0x10] : List Byte) ≠ stuff .p0 x := by
  cases x with
  | nil => decide
  | cons b x =>
    intro h
    rw [stuff_cons] at h
    by_cases hb : b ∈ Profile.p0.rsv
    · rw [stuffByte_of_mem hb] at h
      simp at h
    · rw [stuffByte_of_not_mem hb] at h
      simp only [List.cons_append, List.nil_append, List.cons.injEq] at h
      exact hb (h.1 ▸ by decide)

theorem witness_DestuffOperationReturns :
    seekS.running = true ∧ seekS.profile.wf = true ∧ ∀ x, ([0x10] : List Byte) ≠ stuff seekS.profile x :=
  ⟨by decide, by decide, stuff_ne_esc⟩

/-- Each clause at MIN_FRAME: one byte short, malformed, short after destuffing, and long enough. -/
theorem witness_FrameOperationsReturn :
    seekS.running = true
    ∧ ([0x05] : List Byte).length < seekS.profile.minFrame
    ∧ seekS.profile.minFrame ≤ ([0x05, 0x10] : List Byte).length ∧ destuff seekS.profile [0x05, 0x10] = none
    ∧ seekS.profile.minFrame ≤ ([0x10, 0x22] : List Byte).length ∧ destuff seekS.profile [0x10, 0x22] = some [0x02]
    ∧ ([0x02] : List Byte).length < seekS.profile.minFrame
    ∧ destuff seekS.profile [0x05, 0x05] = some [0x05, 0x05]
    ∧ seekS.profile.minFrame ≤ ([0x05, 0x05] : List Byte).length := by decide

theorem witness_MessageOperationsReturn : seekS.running = true := by decide

theorem witness_MessageRoundTrip :
    Profile.p0.wf = true ∧ encodeMessage .p0 0x01 [0xAA, 0xBB] = .ok [0x01, 0xAA, 0xBB]
    ∧ stuffAndChecksum .p0 [0x01, 0xAA, 0xBB] = .ok [0x02, 0x01, 0xAA, 0xBB, 0x66, 0x03] := by
  exact ⟨by decide, rfl, rfl⟩

/-- The three lengths and both kinds of payload at MAX_PARAM, under p4. -/
theorem witness_CapacityBoundary :
    p4.wf = true ∧ ([0x05, 0x06, 0x07] : List Byte).length = p4.maxParam + 1 ∧ ([0x05, 0x06] : List Byte).length = p4.maxParam
    ∧ (∀ b ∈ 0x01 :: [0x05, 0x06] ++ p4.checksum (0x01 :: [0x05, 0x06]), b ∉ p4.rsv)
    ∧ (¬ ∀ b ∈ 0x01 :: [0x05, 0x02] ++ p4.checksum (0x01 :: [0x05, 0x02]), b ∉ p4.rsv)
    ∧ State.running { buildS [0x05, 0x06] with profile := p4 } = true
    ∧ (buildS [0x05, 0x06]).txPhase = .build ∧ (buildS [0x05, 0x06]).lock = .owned (.ext 0)
    ∧ ((buildS [0x05, 0x06]).slot (.ext 0)).req = { cmd := 0x01, param := [0x05, 0x06] } := by decide

/-- The longest parameter that always fits, under MAX_FRAME_SIZE = 8. -/
theorem witness_ShortParameterAlwaysBuilds :
    (buildS [0x02, 0x03]).running = true ∧ Profile.wf { Profile.p0 with maxFrameSize := 8 } = true
    ∧ (buildS [0x02, 0x03]).txPhase = .build ∧ (buildS [0x02, 0x03]).lock = .owned (.ext 0)
    ∧ 2 * (((buildS [0x02, 0x03]).slot (.ext 0)).req.param.length + 1 + Profile.p0.chkW) = 8 := by decide

theorem witness_ResetAppliesResetValues :
    State.launched { emitS 2 with launched := false } = false ∧ (emitS 2).profile.wf = true
    ∧ State.launched { State.reset with profile := badP } = false ∧ State.running { State.reset with profile := badP } = true
    ∧ seekS.launched = true ∧ seekS.running = true := by decide

/-- A profile that fails each of the conditions (a) to (g) of R9, at the boundary of its range. -/
theorem witness_ResetAppliesResetValues_badProfile :
    badP.start = badP.stop
    ∧ (∃ c ∈ [Profile.escStart .p0, 0x10, Profile.escEsc .p0], c = Profile.start .p0 ∨ c = Profile.stop .p0 ∨ c = Profile.esc .p0)
    ∧ Profile.escStart .p0 = Profile.escStop { Profile.p0 with escStop := 0x22 }
    ∧ (∃ x, (Profile.checksum { Profile.p0 with chkW := 2 } x).length ≠ 2)
    ∧ Profile.chkW { Profile.p0 with chkW := 0, chk := .custom 0 } = 0
    ∧ Profile.maxFrameSize { Profile.p0 with maxFrameSize := 1 } < 1 + Profile.chkW .p0
    ∧ Profile.numPorts { Profile.p0 with numPorts := 0 } = 0 :=
  ⟨by decide, ⟨0x10, by decide, by decide⟩, by decide, ⟨[], by decide⟩, by decide, by decide, by decide⟩

theorem witness_InitStartsReception :
    State.reset.running = true ∧ State.reset.initDone = false ∧ seekS.running = true ∧ seekS.initDone = true := by decide

theorem witness_SeekEntersAccumOnStart :
    seekS.running = true ∧ seekS.rxState = .seek ∧ (0x02 : Byte) = seekS.profile.start ∧ (0x03 : Byte) ≠ seekS.profile.start := by
  decide

/-- The first and the last free cell. -/
theorem witness_AccumStoresByte :
    (accumS []).running = true ∧ (accumS []).rxState = .accum ∧ (0x02 : Byte) ≠ (accumS []).profile.stop
    ∧ (accumS []).rxCnt = 0 ∧ (accumS [0x05, 0x06, 0x07]).rxCnt + 1 = p4.maxFrameSize := by decide

theorem witness_OverflowDropsFrame :
    State.running { accumS [0x05, 0x06, 0x07, 0x08] with profile := p4 } = true
    ∧ (accumS [0x05, 0x06, 0x07, 0x08]).rxState = .accum ∧ (0x02 : Byte) ≠ p4.stop
    ∧ (accumS [0x05, 0x06, 0x07, 0x08]).rxCnt = p4.maxFrameSize := by decide

/-- Bodies that reach each clause of R185, read back from the buffer; the last fills MAX_FRAME_SIZE = 4. -/
theorem witness_StopValidatesInOrder :
    (∀ x ∈ ([[0x05], [0x05, 0x10], [0x10, 0x22], [0x05, 0x06], [0x05, 0x05], [0x01, 0x05, 0x06, 0x0C]] : List (List Byte)),
      (accumS x).running = true ∧ (accumS x).rxState = .accum ∧ (accumS x).rxCnt ≤ p4.maxFrameSize
      ∧ x.length = (accumS x).rxCnt ∧ ∀ i, i < x.length → (accumS x).rxBuf.read i = x[i]?)
    ∧ ([0x05] : List Byte).length < p4.minFrame
    ∧ p4.minFrame ≤ ([0x05, 0x10] : List Byte).length ∧ destuff p4 [0x05, 0x10] = none
    ∧ destuff p4 [0x10, 0x22] = some [0x02] ∧ ([0x02] : List Byte).length < p4.minFrame
    ∧ destuff p4 [0x05, 0x06] = some [0x05, 0x06] ∧ p4.checksum ([0x05, 0x06].take 1) ≠ [0x05, 0x06].drop 1
    ∧ destuff p4 [0x05, 0x05] = some [0x05, 0x05] ∧ p4.checksum ([0x05, 0x05].take 1) = [0x05, 0x05].drop 1
    ∧ destuff p4 [0x01, 0x05, 0x06, 0x0C] = some [0x01, 0x05, 0x06, 0x0C]
    ∧ p4.checksum ([0x01, 0x05, 0x06, 0x0C].take 3) = [0x01, 0x05, 0x06, 0x0C].drop 3 := by decide

/-- The last byte of the view, the first index past it, and no call. -/
theorem witness_ParamReadReturnsViewByte :
    (dispS [0x01, 0xAA, 0xBB, 0x66]).running = true ∧ (dispS [0x01, 0xAA, 0xBB, 0x66]).rxState = .dispatch
    ∧ 1 + 1 = (dispS [0x01, 0xAA, 0xBB, 0x66]).dispLen ∧ 1 + 1 < (dispS [0x01, 0xAA, 0xBB, 0x66]).profile.maxFrameSize
    ∧ (dispS [0x01, 0xAA, 0xBB, 0x66]).rxBuf.read (1 + 1) = some 0xBB ∧ (dispS [0x01, 0xAA, 0xBB, 0x66]).dispLen ≤ 2
    ∧ seekS.running = true ∧ seekS.rxState ≠ .dispatch := by decide

/-- The ends of each range of statuses: -5, -4, -1, and -6 and 0 beyond them. -/
theorem witness_HandlerReturnMapsStatus :
    (dispS [0x07, 0x07]).running = true ∧ (dispS [0x07, 0x07]).rxState = .dispatch
    ∧ ((-6 : Int) < -5) ∧ ((-1 : Int) < 0) ∧ seekS.running = true ∧ seekS.rxState ≠ .dispatch := by decide

theorem witness_ReplyEndReturnsToSeek :
    (replyS (some (-1))).running = true ∧ (replyS (some (-1))).rxState = .reply
    ∧ ((replyS (some (-1))).slot .rxe).resp = some (-1) ∧ ((replyS (some 0)).slot .rxe).resp = some 0 := by decide

/-- The last port, the first port number past it, and the two other misuses. -/
theorem witness_SendRequestQueuesMessage :
    seekS.running = true ∧ 1 < seekS.profile.numPorts ∧ seekS.initDone = true ∧ (seekS.slot (.ext 1)).pst = .idle
    ∧ seekS.ports.length = seekS.profile.numPorts ∧ seekS.profile.numPorts ≤ 2
    ∧ State.reset.running = true ∧ State.reset.initDone = false
    ∧ ((portS .waiting []).slot (.ext 0)).pst ≠ .idle := by decide

theorem witness_GrantAcquiresLock :
    (portS .waiting [0xAA]).running = true ∧ (portS .waiting [0xAA]).lock = .free
    ∧ inReq (portS .waiting [0xAA]).profile (.ext 0) = true ∧ ((portS .waiting [0xAA]).slot (.ext 0)).pst = .waiting
    ∧ inReq (replyS none).profile .rxe = true ∧ ((replyS none).slot .rxe).pst = .waiting := by decide

/-- A parameter of MAX_PARAM + 1, one of MAX_PARAM that stuffing expands, and one of MAX_PARAM that fits. -/
theorem witness_BuildWritesFrame :
    (∀ x ∈ ([[0x05, 0x06, 0x07], [0x05, 0x02], [0x05, 0x06]] : List (List Byte)),
      (buildS x).running = true ∧ (buildS x).txPhase = .build ∧ (buildS x).lock = .owned (.ext 0)
      ∧ ((buildS x).slot (.ext 0)).pst = .active ∧ ((buildS x).slot (.ext 0)).req = { cmd := 0x01, param := x })
    ∧ p4.maxFrameSize < 1 + ([0x05, 0x06, 0x07] : List Byte).length + p4.chkW
    ∧ 1 + ([0x05, 0x02] : List Byte).length + p4.chkW = p4.maxFrameSize
    ∧ p4.maxFrameSize < (stuff p4 (0x01 :: [0x05, 0x02] ++ p4.checksum (0x01 :: [0x05, 0x02]))).length
    ∧ (stuff p4 (0x01 :: [0x05, 0x06] ++ p4.checksum (0x01 :: [0x05, 0x06]))).length = p4.maxFrameSize := by decide

/-- The last byte of a frame, with TXB just large enough. -/
theorem witness_EmitSendsNextByte :
    (emitS 5).running = true ∧ (emitS 5).txPhase = .emit ∧ (emitS 5).lock = .owned (.ext 0) ∧ (emitS 5).txIdx + 1 = (emitS 5).txLen
    ∧ (emitS 5).txLen = p4.txbSize ∧ (emitS 5).txBuf.read (emitS 5).txIdx = some 0x03 := by decide

/-- Before the first byte and before the last. -/
theorem witness_AbortReleasesWithFailure :
    (∀ k ∈ [0, 5], (emitS k).running = true ∧ (emitS k).txPhase = .emit ∧ (emitS k).lock = .owned (.ext 0)
      ∧ ((emitS k).slot (.ext 0)).pst = .active ∧ (emitS k).txIdx < (emitS k).txLen) := by decide

/-! ### States that meet the invariants -/

/-- The invariants as a computation, for a state with two ports. -/
def invCheck (s : State) : Bool :=
  s.profile.wf && s.rxBuf.wf && s.rxBuf.within s.profile.rxbSize && s.txBuf.wf && s.txBuf.within s.profile.txbSize
    && decide (s.ports.length = 2 ∧ s.profile.numPorts = 2)
    && decide (s.lock = .free ↔ s.txPhase = .idle)
    && (match s.lock with | .owned (.ext k) => decide (k < 2) | .owned .rxe => true | .free => true)
    && [Requester.ext 0, .ext 1, .rxe].all (fun r => decide ((s.slot r).pst = .active ↔ s.lock = .owned r))
    && decide ((s.rxe.pst ≠ .idle ∨ s.rxe.resp.isSome = true) ↔ s.rxState = .reply)
    && decide (s.rxe.resp.isSome = true → s.rxe.pst = .idle)
    && decide (s.rxCnt ≤ s.profile.maxFrameSize)
    && decide (s.rxState = .accum → ∀ i, i < s.rxCnt → (s.rxBuf.read i).isSome = true)
    && decide (s.txPhase = .emit → s.txIdx ≤ s.txLen ∧ s.txLen ≤ s.profile.txbSize ∧ s.profile.minFrame + 2 ≤ s.txLen
        ∧ ∀ i, i < s.txLen → (s.txBuf.read i).isSome = true)
    && decide (s.initDone = true)
    && decide (s.rxState = .dispatch → 1 + s.dispLen + s.profile.chkW ≤ s.profile.maxFrameSize
        ∧ ∀ i, i < 1 + s.dispLen → (s.rxBuf.read i).isSome = true)

theorem inv_of_check {s : State} (h : invCheck s = true) : s.Inv := by
  simp only [invCheck, Bool.and_eq_true, decide_eq_true_eq, List.all_eq_true] at h
  obtain ⟨⟨⟨⟨⟨⟨⟨⟨⟨⟨⟨⟨⟨⟨⟨h1, h2⟩, h3⟩, h4⟩, h5⟩, h6⟩, h7⟩, h8⟩, h9⟩, h10⟩, h11⟩, h12⟩, h13⟩, h14⟩, h15⟩, h16⟩ := h
  refine ⟨h1, ⟨h2, h3⟩, ⟨h4, h5⟩, by omega, h7, ?_, h10, h11, h12, h13, fun e => ⟨(h14 e).1, (h14 e).2.1⟩,
    fun e => (h14 e).2.2, fun e => absurd (h15.symm.trans e) (by simp), h16⟩
  intro r
  match r with
  | .rxe => exact h9 .rxe (by simp)
  | .ext 0 => exact h9 (.ext 0) (by simp)
  | .ext 1 => exact h9 (.ext 1) (by simp)
  | .ext (k + 2) =>
    have hs : s.slot (.ext (k + 2)) = Slot.reset := by
      simp [State.slot, List.getElem?_eq_none (show s.ports.length ≤ k + 2 by omega)]
    rw [hs]
    constructor
    · intro e
      exact absurd e (by decide)
    · intro e
      rw [e] at h8
      exact absurd (of_decide_eq_true h8) (by omega)

theorem seekS_inv : seekS.Inv := inv_of_check (by decide)
theorem accumS_inv : (accumS [0x05, 0x05]).Inv := inv_of_check (by decide)
theorem dispS_inv : (dispS [0x01, 0xAA, 0xBB, 0x66]).Inv := inv_of_check (by decide)
theorem replyS_inv : (replyS none).Inv ∧ (replyS (some 5)).Inv := ⟨inv_of_check (by decide), inv_of_check (by decide)⟩
theorem portS_inv : (portS .waiting [0xAA]).Inv := inv_of_check (by decide)
theorem buildS_inv : (buildS [0xAA, 0xBB]).Inv := inv_of_check (by decide)
theorem emitS_inv : (emitS 0).Inv ∧ (emitS 2).Inv ∧ (emitS 6).Inv :=
  ⟨inv_of_check (by decide), inv_of_check (by decide), inv_of_check (by decide)⟩

theorem witness_CompleteReleasesWithLength :
    (emitS 6).running = true ∧ (emitS 6).txPhase = .emit ∧ (emitS 6).lock = .owned (.ext 0)
    ∧ ((emitS 6).slot (.ext 0)).pst = .active ∧ (emitS 6).txIdx = (emitS 6).txLen ∧ (emitS 6).Inv :=
  ⟨by decide, by decide, by decide, by decide, by decide, emitS_inv.2.2⟩

/-! ### Frames and whole-machine rules: the step is taken -/

theorem witness_PureOperationsWriteNothing :
    Instr.agent (.stuff [0x02]) = .codec ∧ isNext (exec (.stuff [0x02]) seekS) = true
    ∧ Instr.agent (.encode 0x01 []) = .message ∧ isNext (exec (.encode 0x01 []) seekS) = true
    ∧ isNext (exec .statusRead faulted) = true ∧ isNext (exec (.hParamRead 0) (dispS [0x01, 0xAA, 0xBB, 0x66])) = true := by
  decide

theorem witness_ByteOperationsFrame :
    isNext (exec (.rxSeek 0x02) seekS) = true ∧ isNext (exec (.rxAccum 0x05) (accumS [0x05])) = true
    ∧ got (·.rxState) (exec (.rxOverflow 0x05) { accumS [0x05, 0x06, 0x07, 0x08] with profile := p4 }) = some .seek
    ∧ got (·.rxState) (exec (.rxStop 0x03) (accumS [0x05, 0x05])) = some .dispatch
    ∧ got (·.rxState) (exec (.rxStop 0x03) (accumS [0x05, 0x06])) = some .seek := by decide

/-- The inner hypotheses of the RX_STOP clause. -/
theorem witness_ByteOperationsFrame_stop :
    memReadList (accumS [0x05, 0x05]).profile.rxbSize (accumS [0x05, 0x05]).rxBuf 0 (accumS [0x05, 0x05]).rxCnt
      = .ok [0x05, 0x05]
    ∧ destuffAndVerify (accumS [0x05, 0x05]).profile [0x05, 0x05] = .ok [0x05, 0x05] := ⟨rfl, rfl⟩

theorem witness_ReturnAndReplyFrame :
    isNext (exec (.hReturn (-5)) (dispS [0x07, 0x07])) = true ∧ isNext (exec .rxReplyEnd (replyS (some 5))) = true := by decide

theorem witness_TransmitOperationsFrame :
    isNext (exec (.sendReq 0 0x01 [0xAA]) seekS) = true ∧ isNext (exec (.txGrant (.ext 0)) (portS .waiting [0xAA])) = true
    ∧ got (·.txPhase) (exec .txBuild (buildS [0xAA, 0xBB])) = some .emit
    ∧ got (·.txPhase) (exec .txBuild { buildS [0x02, 0x02] with profile := p4 }) = some .idle
    ∧ isNext (exec .txEmit (emitS 0)) = true ∧ isNext (exec .txAbort (emitS 0)) = true
    ∧ isNext (exec .txComplete (emitS 6)) = true
    ∧ (buildS [0xAA, 0xBB]).lock = .owned (.ext 0) ∧ (buildS [0xAA, 0xBB]).lock ≠ .owned .rxe := by decide

/-- The inner hypothesis of the TX_BUILD clause. -/
theorem witness_TransmitOperationsFrame_build :
    frameOf (buildS [0xAA, 0xBB]).profile ((buildS [0xAA, 0xBB]).slot (.ext 0)).req.cmd
      ((buildS [0xAA, 0xBB]).slot (.ext 0)).req.param = .ok [0x02, 0x01, 0xAA, 0xBB, 0x66, 0x03] := rfl

theorem witness_ControlOperationsFrame :
    isNext (exec (.init 512 3 .ok) State.reset) = true ∧ isNext (exec .reset State.reset) = true := by decide

theorem witness_NoStepChangesProfile : isNext (step (seekS.offer (encode (.rxSeek 0x02)))) = true := by decide

theorem witness_OnlyReceiveWritesRxBuf :
    got (·.rxBuf) (exec (.rxSeek 0x02) (accumS [0x05])) = some (cells [0x05])
    ∧ got (·.rxBuf) (exec (.hReturn 0) (dispS [0x07, 0x07])) = some (cells [0x07, 0x07])
    ∧ (dispS [0x07, 0x07]).rxState = .dispatch := by decide

theorem witness_OnlyTransmitEngineWrites :
    got (·.txBuf) (exec .txBuild (buildS [0xAA, 0xBB])) = some (emitS 0).txBuf
    ∧ got (·.outHist) (exec .txEmit (emitS 0)) = some [0x02] := by decide

theorem witness_ErrorCounterEvents :
    got (·.errCnt) (exec (.rxOverflow 0x05) { accumS [0x05, 0x06, 0x07, 0x08] with profile := p4 }) = some 1
    ∧ got (·.errCnt) (exec (.rxStop 0x03) (accumS [])) = some 1
    ∧ got (·.errCnt) (exec (.hReturn (-5)) (dispS [0x07, 0x07])) = some 1 := by decide

theorem witness_DiagnosticEvents :
    got (·.diagHist) (exec (.rxOverflow 0x05) { accumS [0x05, 0x06, 0x07, 0x08] with profile := p4 }) = some [-6]
    ∧ got (·.diagHist) (exec (.rxStop 0x03) (accumS [])) = some [-7]
    ∧ got (·.diagHist) (exec (.hReturn (-1)) (dispS [0x07, 0x07])) = some [-1]
    ∧ got (·.diagHist) (exec .rxReplyEnd (replyS (some (-2)))) = some [-2] := by decide

/-- The clauses that say a code is added: a full buffer, each drop at STOP, both ends of the local range, a failed reply. -/
theorem witness_DiagnosticEvents_added :
    State.rxCnt { accumS [0x05, 0x06, 0x07, 0x08] with profile := p4 } = p4.maxFrameSize ∧ (0x05 : Byte) ≠ p4.stop
    ∧ (accumS []).rxState = .accum ∧ got (·.rxState) (exec (.rxStop 0x03) (accumS [])) = some .seek
    ∧ got (fun t => (t.rxState, t.diagHist)) (exec (.rxStop 0x03) (accumS [0x05, 0x06])) = some (.seek, [-8])
    ∧ (dispS [0x07, 0x07]).rxState = .dispatch ∧ isNext (exec (.hReturn (-4)) (dispS [0x07, 0x07])) = true
    ∧ isNext (exec (.hReturn (-1)) (dispS [0x07, 0x07])) = true
    ∧ (replyS (some (-2))).rxState = .reply ∧ ((replyS (some (-2))).slot .rxe).resp = some (-2)
    ∧ isNext (exec .rxReplyEnd (replyS (some (-2)))) = true := by decide

/-- One transition of each kind. -/
theorem witness_ReceiveStageTransitions :
    got (·.rxState) (exec .reset { seekS with launched := false }) = some .disabled
    ∧ got (·.rxState) (exec (.init 0 0 .ok) State.reset) = some .seek
    ∧ got (·.rxState) (exec (.rxSeek 0x02) seekS) = some .accum
    ∧ got (·.rxState) (exec (.rxStop 0x03) (accumS [0x05, 0x05])) = some .dispatch
    ∧ got (·.rxState) (exec (.hReturn (-5)) (dispS [0x07, 0x07])) = some .reply
    ∧ got (·.rxState) (exec .rxReplyEnd (replyS (some 5))) = some .seek := by decide

theorem witness_TransmitPhaseTransitions :
    got (·.txPhase) (exec (.txGrant (.ext 0)) (portS .waiting [0xAA])) = some .build
    ∧ got (·.txPhase) (exec .txBuild (buildS [0xAA, 0xBB])) = some .emit
    ∧ got (·.lock) (exec .txAbort (emitS 2)) = some .free ∧ got (·.lock) (exec .txComplete (emitS 6)) = some .free := by decide

theorem witness_MarksStopEverything :
    faulted.launched = true ∧ faulted.fault = some .portBusy ∧ isFault .portBusy (step faulted) = true
    ∧ refusedS.launched = true ∧ refusedS.fault = none ∧ refusedS.refused = some .badPort
    ∧ isRefused .badPort (step (refusedS.offer (encode .txEmit))) = true := by decide

/-- A state for each way a guard is false, at its boundary. -/
theorem witness_UnenabledOperationWaits :
    State.reset.running = true ∧ State.reset.rxState ≠ .seek ∧ State.reset.lock = .free ∧ State.reset.txPhase ≠ .build
    ∧ State.reset.txPhase ≠ .emit ∧ (accumS [0x05, 0x06, 0x07, 0x08]).rxState = .accum
    ∧ p4.maxFrameSize ≤ (accumS [0x05, 0x06, 0x07, 0x08]).rxCnt ∧ (accumS [0x05, 0x06, 0x07]).rxCnt ≠ p4.maxFrameSize
    ∧ ((replyS none).slot .rxe).resp = none ∧ inReq Profile.p0 (.ext 2) = false
    ∧ (emitS 6).txPhase = .emit ∧ (emitS 6).txLen ≤ (emitS 6).txIdx ∧ (emitS 5).txIdx ≠ (emitS 5).txLen := by decide

theorem witness_ExactlyOneReceiveOperation :
    seekS.rxCnt ≤ seekS.profile.maxFrameSize ∧ seekS.rxState = .seek
    ∧ (accumS [0x05, 0x06, 0x07, 0x08]).rxCnt = p4.maxFrameSize ∧ (accumS [0x05, 0x06, 0x07, 0x08]).rxState = .accum
    ∧ State.reset.rxState = .disabled ∧ (dispS [0x07, 0x07]).rxState = .dispatch ∧ (replyS none).rxState = .reply := by decide

/-- Two states that differ on the transmit side only, and two that differ on the receive side only. -/
theorem witness_SidesDoNotInterfere :
    SameReceiveSide seekS (emitS 2) ∧ isNext (exec (.rxSeek 0x02) seekS) = true ∧ isNext (exec (.rxSeek 0x02) (emitS 2)) = true
    ∧ SameTransmitSide (emitS 2) { emitS 2 with rxState := .accum, rxCnt := 3, errCnt := 7, diagHist := [-8] }
    ∧ isNext (exec .txEmit (emitS 2)) = true
    ∧ isNext (exec .txEmit { emitS 2 with rxState := .accum, rxCnt := 3, errCnt := 7, diagHist := [-8] }) = true := by
  unfold SameReceiveSide SameTransmitSide
  decide

/-- The tags beside listed ones. -/
theorem witness_ReservedTagIsRefused :
    State.running (seekS.offer { tag := 0x03 }) = true ∧ (seekS.offer { tag := 0x03 }).script = { tag := 0x03 } :: seekS.script
    ∧ (0x03 : Byte).toNat ∉ [0x00, 0x01, 0x02, 0x10, 0x11, 0x12, 0x13, 0x14, 0x15, 0x16, 0x17, 0x18, 0x20, 0x21, 0x22,
      0x30, 0x31, 0x32, 0x33, 0x34, 0x35, 0x36, 0x40, 0x41, 0x42, 0x43, 0x44, 0x45] := by decide

/-- A word with values in lanes its operation does not read. -/
theorem witness_OperationWordsRoundTrip :
    decode { tag := 0x34, nat := 7, byte := 0x55, status := -3 } = .ok (.hParamRead 7) := rfl

theorem witness_StepRunsDecodedOperation :
    (seekS.offer (encode (.rxSeek 0x02))).script = encode (.rxSeek 0x02) :: seekS.script
    ∧ guardOf (.rxSeek 0x02) (seekS.offer (encode (.rxSeek 0x02))) = true ∧ isNext (exec (.rxSeek 0x02) seekS) = true
    ∧ guardOf (.rxSeek 0x02) (faulted.offer (encode (.rxSeek 0x02))) = true
    ∧ isFault .portBusy (exec (.rxSeek 0x02) faulted) = true
    ∧ guardOf (.rxSeek 0x02) (refusedS.offer (encode (.rxSeek 0x02))) = true
    ∧ isRefused .badPort (exec (.rxSeek 0x02) refusedS) = true
    ∧ guardOf .txBuild (seekS.offer (encode .txBuild)) = false ∧ State.running (seekS.offer (encode .txBuild)) = true := by
  decide

theorem witness_StepRunsDecodedOperation_decode :
    decode (encode (.rxSeek 0x02)) = .ok (.rxSeek 0x02) ∧ decode (encode .txBuild) = .ok .txBuild := ⟨rfl, rfl⟩

/-- From an invariant state, each kind of state is stepped into. -/
theorem witness_StepKeepsInvariants :
    (accumS [0x05, 0x05]).Inv ∧ isNext (step (accumS [0x05, 0x05])) = true
    ∧ State.Inv (accumS [0x05, 0x05] |>.offer (encode (.rxStop 0x03)))
    ∧ got (·.rxState) (step (accumS [0x05, 0x05] |>.offer (encode (.rxStop 0x03)))) = some .dispatch :=
  ⟨accumS_inv, by decide, inv_of_check (by decide), by decide⟩

theorem witness_BufferGuardsAreUnreachable :
    State.Inv (dispS [0x01, 0xAA, 0xBB, 0x66] |>.offer (encode (.hParamRead 1)))
    ∧ (dispS [0x01, 0xAA, 0xBB, 0x66] |>.offer (encode (.hParamRead 1))).fault = none
    ∧ isNext (step (dispS [0x01, 0xAA, 0xBB, 0x66] |>.offer (encode (.hParamRead 1)))) = true
    ∧ State.Inv (seekS.offer (encode (.decodeCmd [])))
    ∧ got (·.fault) (step (seekS.offer (encode (.decodeCmd [])))) = some (some .unwrittenRead) :=
  ⟨inv_of_check (by decide), by decide, by decide, inv_of_check (by decide), by decide⟩

theorem witness_TransmitIsMutuallyExclusive :
    (emitS 2).Inv ∧ ((emitS 2).slot (.ext 0)).pst = .active ∧ isNext (exec .txEmit (emitS 2)) = true
    ∧ ((emitS 2).slot .rxe).pst ≠ .active :=
  ⟨emitS_inv.2.1, by decide, by decide, by decide⟩

/-- A build that reaches EMIT; and a frame half out, with the three ways a segment goes on. -/
theorem witness_GrantSegmentIsFramePrefix :
    (buildS [0xAA, 0xBB]).Inv ∧ (buildS [0xAA, 0xBB]).txPhase = .build ∧ (buildS [0xAA, 0xBB]).lock = .owned (.ext 0)
    ∧ got (·.txPhase) (exec .txBuild (buildS [0xAA, 0xBB])) = some .emit
    ∧ (emitS 2).Inv ∧ Emitting (emitS 2) (.ext 0) [] [0x02, 0x01, 0xAA, 0xBB, 0x66, 0x03]
    ∧ isNext (exec .txEmit (emitS 2)) = true ∧ isNext (exec .txAbort (emitS 2)) = true
    ∧ Emitting (emitS 6) (.ext 0) [] [0x02, 0x01, 0xAA, 0xBB, 0x66, 0x03] ∧ isNext (exec .txComplete (emitS 6)) = true :=
  ⟨buildS_inv, by decide, by decide, by decide, emitS_inv.2.1,
    ⟨by decide, by decide, by decide, by decide, by decide, by decide⟩, by decide, by decide,
    ⟨by decide, by decide, by decide, by decide, by decide, by decide⟩, by decide⟩

/-- Quiescent in DISABLED, SEEK and ACCUM. -/
theorem witness_QuiescentStateHasNoPendingWork :
    State.reset.quiescent = true ∧ seekS.quiescent = true ∧ (accumS [0x05]).quiescent = true := by decide

theorem witness_NoiseIsDiscarded :
    seekS.running = true ∧ seekS.rxState = .seek ∧ (∀ b ∈ ([0x03, 0x10, 0x55] : List Byte), b ≠ seekS.profile.start)
    ∧ State.script { seekS with script := ([0x03, 0x10, 0x55] : List Byte).map (fun b => encode (.rxSeek b)) ++ [] }
      = ([0x03, 0x10, 0x55] : List Byte).map (fun b => encode (.rxSeek b)) ++ [] := by decide

theorem witness_ReceivedFrameDispatchesMessage :
    seekS.running = true ∧ seekS.profile.wf = true ∧ seekS.rxState = .seek
    ∧ frameOf seekS.profile 0x01 [0xAA, 0xBB] = .ok [0x02, 0x01, 0xAA, 0xBB, 0x66, 0x03] :=
  ⟨by decide, by decide, by decide, rfl⟩

theorem witness_GrantedRequestSendsWholeFrame :
    (portS .waiting [0xAA, 0xBB]).running = true ∧ (portS .waiting [0xAA, 0xBB]).lock = .free
    ∧ inReq (portS .waiting [0xAA, 0xBB]).profile (.ext 0) = true
    ∧ ((portS .waiting [0xAA, 0xBB]).slot (.ext 0)).pst = .waiting
    ∧ frameOf (portS .waiting [0xAA, 0xBB]).profile ((portS .waiting [0xAA, 0xBB]).slot (.ext 0)).req.cmd
        ((portS .waiting [0xAA, 0xBB]).slot (.ext 0)).req.param = .ok [0x02, 0x01, 0xAA, 0xBB, 0x66, 0x03]
    ∧ inReq (replyS none).profile .rxe = true ∧ ((replyS none).slot .rxe).pst = .waiting
    ∧ frameOf (replyS none).profile ((replyS none).slot .rxe).req.cmd ((replyS none).slot .rxe).req.param
      = .ok [0x02, 0xFF, 0x07, 0x06, 0x03] :=
  ⟨by decide, by decide, by decide, by decide, rfl, by decide, by decide, rfl⟩

end Sys2Proof.Tests
end

/-! When a guard is false (00_scope.md R14, 42_receive.md R130 to R139, 43_transmit.md R152 to R156), and what an
operation then does: it waits. -/

namespace Sys2Proof.Machine

/-! ## When each guard is false -/

theorem State.holder_isSome_eq_false {s : State} : s.holder.isSome = false ↔ s.lock = .free := by
  unfold State.holder
  cases s.lock <;> simp

theorem rxSeekGuard_eq_false {s : State} : rxSeekGuard s = false ↔ s.rxState ≠ .seek := by
  simp [rxSeekGuard]

theorem rxAccumGuard_eq_false {s : State} {b : Byte} :
    rxAccumGuard s b = false ↔ s.rxState ≠ .accum ∨ b = s.profile.stop ∨ s.profile.maxFrameSize ≤ s.rxCnt := by
  simp only [rxAccumGuard, decide_eq_false_iff_not, Decidable.not_and_iff_or_not, Decidable.not_not, Nat.not_lt]

theorem rxOverflowGuard_eq_false {s : State} {b : Byte} :
    rxOverflowGuard s b = false ↔ s.rxState ≠ .accum ∨ b = s.profile.stop ∨ s.rxCnt ≠ s.profile.maxFrameSize := by
  simp only [rxOverflowGuard, decide_eq_false_iff_not, Decidable.not_and_iff_or_not, Decidable.not_not]

theorem rxStopGuard_eq_false {s : State} {b : Byte} :
    rxStopGuard s b = false ↔ s.rxState ≠ .accum ∨ b ≠ s.profile.stop := by
  simp only [rxStopGuard, decide_eq_false_iff_not, Decidable.not_and_iff_or_not]

theorem rxReplyEndGuard_eq_false {s : State} :
    rxReplyEndGuard s = false ↔ s.rxState ≠ .reply ∨ (s.slot .rxe).resp = none := by
  simp only [rxReplyEndGuard, State.slot, Bool.and_eq_false_iff, decide_eq_false_iff_not, Option.isSome_eq_false_iff,
    Option.isNone_iff_eq_none]

theorem txGrantGuard_eq_false {s : State} {r : Requester} :
    txGrantGuard s r = false ↔ s.lock ≠ .free ∨ inReq s.profile r = false ∨ (s.slot r).pst ≠ .waiting := by
  simp only [txGrantGuard, isWaiter, Bool.and_eq_false_iff, decide_eq_false_iff_not]

theorem txBuildGuard_eq_false {s : State} : txBuildGuard s = false ↔ s.txPhase ≠ .build ∨ s.lock = .free := by
  simp only [txBuildGuard, Bool.and_eq_false_iff, decide_eq_false_iff_not, State.holder_isSome_eq_false]

theorem txEmitGuard_eq_false {s : State} :
    txEmitGuard s = false ↔ s.txPhase ≠ .emit ∨ s.txLen ≤ s.txIdx ∨ s.lock = .free := by
  simp only [txEmitGuard, Bool.and_eq_false_iff, decide_eq_false_iff_not, Decidable.not_and_iff_or_not, Nat.not_lt,
    State.holder_isSome_eq_false, or_assoc]

theorem txCompleteGuard_eq_false {s : State} :
    txCompleteGuard s = false ↔ s.txPhase ≠ .emit ∨ s.txIdx ≠ s.txLen ∨ s.lock = .free := by
  simp only [txCompleteGuard, Bool.and_eq_false_iff, decide_eq_false_iff_not, Decidable.not_and_iff_or_not,
    State.holder_isSome_eq_false, or_assoc]

/-- R154 and R155: CHOUT takes or refuses the byte under one and the same guard. -/
theorem txAbortGuard_eq_txEmitGuard (s : State) : txAbortGuard s = txEmitGuard s := rfl

/-! ## An operation whose guard is false -/

theorem whenEnabled_of_guard_false {g : Bool} {s : State} (k : Out) (hr : s.running = true) (hg : g = false) :
    whenEnabled g s k = .next s := by
  rw [hg]
  exact whenEnabled_false k hr

/-- R14: in an unmarked state an operation whose guard is false waits. Ten operations have a guard; the others are always
enabled. -/
theorem exec_of_guard_false {i : Instr} {s : State} (hr : s.running = true) (hg : guardOf i s = false) :
    exec i s = .next s := by
  cases i with
  | rxSeek | rxAccum | rxOverflow | rxStop | rxReplyEnd | txGrant | txBuild | txEmit | txAbort | txComplete =>
    exact whenEnabled_of_guard_false _ hr hg
  | reset | init | statusRead | delimClass | chkGen | chkVerify | stuffByte | stuff | destuff | delimWrap
  | stuffAndChecksum | destuffAndVerify | encode | decodeCmd | decodeParam | hParamRead | hReturn | sendReq =>
    simp [guardOf] at hg

/-- Settles O45: each clause's premise is the guard's falsity, written out, and an operation whose guard is false waits. -/
theorem unenabledOperationWaits : Obligations.UnenabledOperationWaits := by
  intro s hr
  have waits {i : Instr} (hg : guardOf i s = false) : exec i s = .next s := exec_of_guard_false hr hg
  exact ⟨fun _ h => waits (rxSeekGuard_eq_false.mpr h),
    fun _ h => waits (rxAccumGuard_eq_false.mpr h),
    fun _ h => waits (rxOverflowGuard_eq_false.mpr h),
    fun _ h => waits (rxStopGuard_eq_false.mpr h),
    fun h => waits (rxReplyEndGuard_eq_false.mpr h),
    fun _ h => waits (txGrantGuard_eq_false.mpr h),
    fun h => waits (txBuildGuard_eq_false.mpr h),
    fun h => ⟨waits (txEmitGuard_eq_false.mpr h),
      waits ((txAbortGuard_eq_txEmitGuard s).trans (txEmitGuard_eq_false.mpr h))⟩,
    fun h => waits (txCompleteGuard_eq_false.mpr h)⟩

end Sys2Proof.Machine

/-! What a step does with the operation at the head of the script (00_scope.md R14, 30_encoding.md R83). -/

namespace Sys2Proof.Machine

@[simp] theorem retire_next (t : State) : retire (.next t) = .next { t with launched := true } := rfl

@[simp] theorem retire_fault (f : Fault) : retire (.fault f) = .fault f := rfl

@[simp] theorem retire_refused (r : Refusal) : retire (.refused r) = .refused r := rfl

theorem State.consume_of_script {s : State} {w : OpWord} {rest : List OpWord} (hs : s.script = w :: rest) :
    s.consume = { s with script := rest } := by
  simp [State.consume, hs]

theorem step_of_decode {s : State} {w : OpWord} {rest : List OpWord} {i : Instr} (hs : s.script = w :: rest)
    (hd : decode w = .ok i) : step s = takeOperation i s := by
  simp only [step, takeNext, hs, hd]

/-- An enabled operation at the head is taken and leaves the script. -/
theorem step_of_enabled {s : State} {w : OpWord} {rest : List OpWord} {i : Instr} (hs : s.script = w :: rest)
    (hd : decode w = .ok i) (hg : guardOf i s = true) : step s = retire (exec i { s with script := rest }) := by
  rw [step_of_decode hs hd, takeOperation, if_pos hg, State.consume_of_script hs]

/-- An operation at the head whose guard is false stays there: the step changes nothing. -/
theorem step_of_not_enabled {s : State} {w : OpWord} {rest : List OpWord} {i : Instr} (hs : s.script = w :: rest)
    (hd : decode w = .ok i) (hg : guardOf i s = false) (hr : s.running = true) : step s = .next s := by
  have hng : ¬ guardOf i s = true := Bool.eq_false_iff.mp hg
  rw [step_of_decode hs hd, takeOperation, if_neg hng, exec_of_guard_false hr hg]

/-- Settles O51: an enabled head is taken, with each of the three outcomes passed on by `retire`; another head waits. -/
theorem stepRunsDecodedOperation : Obligations.StepRunsDecodedOperation := by
  intro s w rest i hs hd
  refine ⟨fun hg => ?_, fun hg hr => step_of_not_enabled hs hd hg hr⟩
  rw [step_of_enabled hs hd hg]
  refine ⟨fun t h => ?_, fun f h => ?_, fun r h => ?_⟩
  · rw [h, retire_next]
  · rw [h, retire_fault]
  · rw [h, retire_refused]

end Sys2Proof.Machine

/-! Everything one operation can do when it answers a next state, as one relation over the operations of 30_encoding.md
R81. A proof about every operation splits into these effects and not into the 28 operations. -/

namespace Sys2Proof.Machine

/-- `Effect s i t`: taken in `s`, the operation `i` leaves `t`. `quiet` is every case that changes at most the marks and
the returned value: a wait, a value answered, a model fault, a refusal. Every other constructor is one change of the
block's own elements, with what held where it was made. -/
inductive Effect (s : State) : Instr → State → Prop
  | quiet (i : Instr) (ret : Option Result) (fault : Option Fault) (refused : Option Refusal) :
      Effect s i { s with ret := ret, fault := fault, refused := refused }
  | reset (hwf : s.profile.wf = true) : Effect s .reset s.applyReset
  | init (stackSize priority : Nat) (hi : s.initDone = false) :
      Effect s (.init stackSize priority .ok) { s with initDone := true, rxState := .seek, ret := some (.code 0) }
  | seek (hx : s.rxState = .seek) : Effect s (.rxSeek s.profile.start) { s with rxCnt := 0, rxState := .accum }
  | accum (b : Byte) (hx : s.rxState = .accum) (hb : b ≠ s.profile.stop) (hc : s.rxCnt < s.profile.maxFrameSize) :
      Effect s (.rxAccum b) { s with rxBuf := s.rxBuf.write s.rxCnt b, rxCnt := s.rxCnt + 1 }
  | overflow (b : Byte) (hx : s.rxState = .accum) (hb : b ≠ s.profile.stop) (hc : s.rxCnt = s.profile.maxFrameSize) :
      Effect s (.rxOverflow b) (s.drop .frameTooLong)
  | stopDrop (e : ProtoError) (hx : s.rxState = .accum) (he : e = .badSize ∨ e = .badChecksum) :
      Effect s (.rxStop s.profile.stop) (s.drop e)
  | stopDispatch (cmd : Byte) (rest : List Byte) (m : Memory) (hx : s.rxState = .accum)
      (hmin : s.profile.minFrame ≤ (cmd :: rest).length) (hle : (cmd :: rest).length ≤ s.rxCnt)
      (hm : memWriteList s.profile.rxbSize s.rxBuf 0 (cmd :: rest) = .ok m) :
      Effect s (.rxStop s.profile.stop)
        { s with
          rxBuf := m
          dispCmd := cmd
          dispLen := (cmd :: rest).length - 1 - s.profile.chkW
          rxState := .dispatch }
  | queueReply (hx : s.rxState = .dispatch) : Effect s (.hReturn (-5)) (queueReply s)
  | report (v : Int) (hx : s.rxState = .dispatch) (hv : -4 ≤ v ∧ v ≤ -1) :
      Effect s (.hReturn v) { s with diagHist := s.diagHist ++ [v], rxState := .seek }
  | handled (v : Int) (hx : s.rxState = .dispatch) (hv : v < -5 ∨ -1 < v) :
      Effect s (.hReturn v) { s with rxState := .seek }
  | replyEnd (v : Int) (hx : s.rxState = .reply) (hv : s.rxe.resp = some v) :
      Effect s .rxReplyEnd
        { s with
          diagHist := if v < 0 then s.diagHist ++ [v] else s.diagHist
          rxe := { s.rxe with resp := none }
          rxState := .seek }
  | sendReq (p : Nat) (cmd : Byte) (param : List Byte) (hp : p < s.profile.numPorts) (hi : s.initDone = true)
      (hidle : (s.slot (.ext p)).pst = .idle) :
      Effect s (.sendReq p cmd param)
        (s.setSlot (.ext p) { pst := .waiting, req := { cmd := cmd, param := param }, resp := none })
  | grant (r : Requester) (hl : s.lock = .free) (hr : inReq s.profile r = true) (hw : (s.slot r).pst = .waiting) :
      Effect s (.txGrant r)
        ({ s with lock := .owned r, txPhase := .build }.setSlot r { s.slot r with pst := .active })
  | buildFails (r : Requester) (e : ProtoError) (hp : s.txPhase = .build) (hl : s.lock = .owned r)
      (he : frameOf s.profile (s.slot r).req.cmd (s.slot r).req.param = .error e) :
      Effect s .txBuild (s.release r e.code)
  | build (r : Requester) (f : List Byte) (m : Memory) (hp : s.txPhase = .build) (hl : s.lock = .owned r)
      (hf : frameOf s.profile (s.slot r).req.cmd (s.slot r).req.param = .ok f)
      (hm : memWriteList s.profile.txbSize s.txBuf 0 f = .ok m) :
      Effect s .txBuild { s with txBuf := m, txLen := f.length, txIdx := 0, txPhase := .emit }
  | emit (r : Requester) (b : Byte) (hp : s.txPhase = .emit) (hl : s.lock = .owned r) (hi : s.txIdx < s.txLen)
      (hb : memRead s.profile.txbSize s.txBuf s.txIdx = .ok b) :
      Effect s .txEmit { s with outHist := s.outHist ++ [b], txIdx := s.txIdx + 1 }
  | abort (r : Requester) (hp : s.txPhase = .emit) (hl : s.lock = .owned r) (hi : s.txIdx < s.txLen) :
      Effect s .txAbort (s.release r (-9))
  | complete (r : Requester) (hp : s.txPhase = .emit) (hl : s.lock = .owned r) (hi : s.txIdx = s.txLen) :
      Effect s .txComplete (s.release r (s.txLen : Int))

theorem Effect.refl (s : State) (i : Instr) : Effect s i s := .quiet i s.ret s.fault s.refused

theorem Effect.fail (s : State) (i : Instr) (f : Fault) : Effect s i (s.fail f) :=
  .quiet i s.ret (s.fault.or (some f)) s.refused

theorem Effect.refuse (s : State) (i : Instr) (r : Refusal) : Effect s i (s.refuse r) :=
  .quiet i s.ret s.fault (s.refused.or (some r))

theorem Effect.returns (s : State) (i : Instr) (v : Result) : Effect s i (s.returns v) :=
  .quiet i (some v) s.fault s.refused

/-- A codec or message operation changes nothing of the block. -/
theorem exec_pure_effect {i : Instr} {s t : State} (hi : i.agent = .codec ∨ i.agent = .message)
    (h : exec i s = .next t) : Effect s i t := by
  obtain ⟨-, ⟨v, rfl⟩ | ⟨-, rfl⟩⟩ := exec_pure_cases hi h
  · exact .returns s i v
  · exact .fail s i .unwrittenRead

/-- RX_STOP. A fault in reading the body leaves the block as it is. -/
theorem execRxStop_effect {s t : State} {b : Byte} (h : execRxStop b s = .next t) : Effect s (.rxStop b) t := by
  obtain ⟨-, rfl | ⟨hx, rfl, ⟨f, -, rfl⟩ | ⟨x, -, ⟨e, -, he, rfl⟩ | ⟨cmd, rest, m, -, hmin, hle, -, hm, rfl⟩⟩⟩⟩ :=
    execRxStop_cases h
  · exact .refl ..
  · exact .fail ..
  · exact .stopDrop e hx he
  · exact .stopDispatch cmd rest m hx hmin hle hm

theorem execHParamRead_effect {s t : State} {k : Nat} (h : execHParamRead k s = .next t) :
    Effect s (.hParamRead k) t := by
  obtain ⟨-, ⟨-, rfl⟩ | ⟨-, -, rfl⟩ | ⟨-, -, ⟨f, -, rfl⟩ | ⟨b, -, rfl⟩⟩⟩ := execHParamRead_cases h
  · exact .fail ..
  · exact .fail ..
  · exact .fail ..
  · exact .returns ..

theorem execHReturn_effect {s t : State} {v : Int} (h : execHReturn v s = .next t) : Effect s (.hReturn v) t := by
  obtain ⟨-, ⟨-, rfl⟩ | ⟨hx, rfl, rfl⟩ | ⟨hx, h4, h1, rfl⟩ | ⟨hx, hv, rfl⟩⟩ := execHReturn_cases h
  · exact .fail ..
  · exact .queueReply hx
  · exact .report v hx ⟨h4, h1⟩
  · exact .handled v hx hv

theorem execSendReq_effect {s t : State} {p : Nat} {cmd : Byte} {param : List Byte}
    (h : execSendReq p cmd param s = .next t) : Effect s (.sendReq p cmd param) t := by
  obtain ⟨-, ⟨-, rfl⟩ | ⟨-, -, rfl⟩ | ⟨-, -, -, rfl⟩ | ⟨hp, hi, hidle, rfl⟩⟩ := execSendReq_cases h
  · exact .refuse ..
  · exact .fail ..
  · exact .fail ..
  · exact .sendReq p cmd param hp hi hidle

theorem execTxBuild_effect {s t : State} (h : execTxBuild s = .next t) : Effect s .txBuild t := by
  obtain ⟨-, ⟨hp, r, hl, rfl⟩ | rfl⟩ := execTxBuild_cases h
  · obtain ⟨e, he, hb⟩ | ⟨f, m, hf, hm, hb⟩ := buildFor_cases s r
    · exact hb ▸ .buildFails r e hp hl he
    · exact hb ▸ .build r f m hp hl hf hm
  · exact .refl ..

theorem execTxEmit_effect {s t : State} (h : execTxEmit s = .next t) : Effect s .txEmit t := by
  obtain ⟨-, ⟨hp, hi, ⟨r, hl⟩, ⟨f, -, rfl⟩ | ⟨b, hb, rfl⟩⟩ | rfl⟩ := execTxEmit_cases h
  · exact .fail ..
  · exact .emit r b hp hl hi hb
  · exact .refl ..

/-- Every next state that an operation answers is one of its effects. -/
theorem exec_effect {i : Instr} {s t : State} (h : exec i s = .next t) : Effect s i t := by
  cases i with
  | delimClass | chkGen | chkVerify | stuffByte | stuff | destuff | delimWrap | stuffAndChecksum | destuffAndVerify =>
    exact exec_pure_effect (.inl rfl) h
  | encode | decodeCmd | decodeParam => exact exec_pure_effect (.inr rfl) h
  | reset =>
    obtain ⟨-, -, rfl⟩ | ⟨-, hwf, rfl⟩ | ⟨-, -, rfl⟩ := execReset_cases h
    · exact .refuse ..
    · exact .reset hwf
    · exact .refuse ..
  | init n p d =>
    obtain ⟨-, ⟨-, rfl⟩ | ⟨hi, rfl, rfl⟩ | ⟨-, -, rfl⟩⟩ := execInit_cases (a := n) (b := p) h
    · exact .fail ..
    · exact .init n p hi
    · exact .returns ..
  | statusRead =>
    injection h with h
    exact h ▸ .returns ..
  | rxSeek b =>
    obtain ⟨-, ⟨hx, rfl, rfl⟩ | rfl⟩ := execRxSeek_cases h
    · exact .seek hx
    · exact .refl ..
  | rxAccum b =>
    obtain ⟨-, ⟨hx, hb, hc, rfl⟩ | rfl⟩ := execRxAccum_cases h
    · exact .accum b hx hb hc
    · exact .refl ..
  | rxOverflow b =>
    obtain ⟨-, ⟨hx, hb, hc, rfl⟩ | rfl⟩ := execRxOverflow_cases h
    · exact .overflow b hx hb hc
    · exact .refl ..
  | rxStop b => exact execRxStop_effect h
  | hParamRead k => exact execHParamRead_effect h
  | hReturn v => exact execHReturn_effect h
  | rxReplyEnd =>
    obtain ⟨-, ⟨hx, v, hv, rfl⟩ | rfl⟩ := execRxReplyEnd_cases h
    · exact .replyEnd v hx hv
    · exact .refl ..
  | sendReq p cmd param => exact execSendReq_effect h
  | txGrant r =>
    obtain ⟨-, ⟨hl, hr, hw, rfl⟩ | rfl⟩ := execTxGrant_cases h
    · exact .grant r hl hr hw
    · exact .refl ..
  | txBuild => exact execTxBuild_effect h
  | txEmit => exact execTxEmit_effect h
  | txAbort =>
    obtain ⟨-, ⟨hp, hi, r, hl, rfl⟩ | rfl⟩ := execTxAbort_cases h
    · exact .abort r hp hl hi
    · exact .refl ..
  | txComplete =>
    obtain ⟨-, ⟨hp, hi, r, hl, rfl⟩ | rfl⟩ := execTxComplete_cases h
    · exact .complete r hp hl hi
    · exact .refl ..

end Sys2Proof.Machine

/-! What the effects say of the profile, the error counter and the transitions of both engines (10_state.md R21, R28,
R23, R31). -/

namespace Sys2Proof.Machine

/-- No operation changes the profile (R21): not one effect writes it. -/
theorem Effect.profile {s t : State} {i : Instr} (h : Effect s i t) : t.profile = s.profile := by
  cases h with
  | sendReq | grant => exact State.setSlot_profile ..
  | buildFails | abort | complete => exact State.release_profile ..
  | quiet | reset | init | seek | accum | overflow | stopDrop | stopDispatch | queueReply | report | handled
  | replyEnd | build | emit => rfl

/-- Settles O37: a step takes an operation, waits, or records a refusal. -/
theorem noStepChangesProfile : Obligations.NoStepChangesProfile := by
  intro s t h
  obtain ⟨-, rfl, -⟩ | ⟨-, -, i, u, -, -, -, hu, rfl⟩ | ⟨-, -, i, -, -, -, hi⟩ | ⟨-, -, -, -, -, -, rfl⟩ := step_cases h
  · rfl
  · exact (exec_effect hu).profile
  · exact (exec_effect hi).profile
  · rfl

/-- Settles O40: the counter's three events are the two drops and the queued reply. -/
theorem errorCounterEvents : Obligations.ErrorCounterEvents := by
  intro i s t hi h
  cases exec_effect h with
  | reset => exact absurd rfl hi
  | overflow b => exact .inr ⟨rfl, .inl ⟨b, rfl, rfl⟩⟩
  | stopDrop => exact .inr ⟨rfl, .inr (.inl ⟨_, rfl, rfl⟩)⟩
  | queueReply => exact .inr ⟨rfl, .inr (.inr ⟨rfl, rfl⟩)⟩
  | sendReq | grant => exact .inl (State.setSlot_errCnt ..)
  | buildFails | abort | complete => exact .inl (State.release_errCnt ..)
  | quiet | init | seek | accum | stopDispatch | report | handled | replyEnd | build | emit => exact .inl rfl

/-- Settles O42: each effect that moves the stage is one of the listed transitions; every other keeps it. -/
theorem receiveStageTransitions : Obligations.ReceiveStageTransitions := by
  intro i s t h hne
  cases exec_effect h with
  | reset => exact .inl ⟨rfl, rfl⟩
  | init n p hi => exact .inr (.inl ⟨n, p, rfl, hi, rfl⟩)
  | seek hx => exact .inr (.inr (.inl ⟨rfl, hx, rfl⟩))
  | overflow b hx => exact .inr (.inr (.inr (.inl ⟨b, rfl, hx, rfl⟩)))
  | stopDrop e hx => exact .inr (.inr (.inr (.inr (.inl ⟨rfl, hx, .inl rfl⟩))))
  | stopDispatch _ _ _ hx => exact .inr (.inr (.inr (.inr (.inl ⟨rfl, hx, .inr rfl⟩))))
  | queueReply hx => exact .inr (.inr (.inr (.inr (.inr (.inl ⟨-5, rfl, hx, .inl ⟨rfl, rfl⟩⟩)))))
  | report v hx hv => exact .inr (.inr (.inr (.inr (.inr (.inl ⟨v, rfl, hx, .inr ⟨by omega, rfl⟩⟩)))))
  | handled v hx hv => exact .inr (.inr (.inr (.inr (.inr (.inl ⟨v, rfl, hx, .inr ⟨by omega, rfl⟩⟩)))))
  | replyEnd _ hx => exact .inr (.inr (.inr (.inr (.inr (.inr ⟨rfl, hx, rfl⟩)))))
  | sendReq | grant => exact absurd (State.setSlot_rxState ..) hne
  | buildFails | abort | complete => exact absurd (State.release_rxState ..) hne
  | quiet | accum | build | emit => exact absurd rfl hne

/-- Settles O43: only TX_GRANT, TX_BUILD and the two releases move the phase or the lock. -/
theorem transmitPhaseTransitions : Obligations.TransmitPhaseTransitions := by
  intro i s t hi h hne
  cases exec_effect h with
  | reset => exact absurd rfl hi
  | grant r hl _ hw => exact .inl ⟨r, rfl, hl, hw, State.setSlot_lock .., State.setSlot_txPhase ..⟩
  | buildFails r e hp hl =>
    exact .inr (.inl ⟨rfl, hp, ⟨r, hl⟩, .inr ⟨State.release_txPhase .., State.release_lock ..⟩⟩)
  | build r f m hp hl => exact .inr (.inl ⟨rfl, hp, ⟨r, hl⟩, .inl ⟨rfl, rfl⟩⟩)
  | abort r hp hl => exact .inr (.inr ⟨.inl rfl, hp, ⟨r, hl⟩, State.release_txPhase .., State.release_lock ..⟩)
  | complete r hp hl => exact .inr (.inr ⟨.inr rfl, hp, ⟨r, hl⟩, State.release_txPhase .., State.release_lock ..⟩)
  | sendReq => exact hne.elim (absurd (State.setSlot_txPhase ..)) (absurd (State.setSlot_lock ..))
  | quiet | init | seek | accum | overflow | stopDrop | stopDispatch | queueReply | report | handled | replyEnd
  | emit => exact hne.elim (absurd rfl) (absurd rfl)

end Sys2Proof.Machine

/-! The invariants of 10_state.md R35: one lemma per effect that says why it keeps them, and from these every step. -/

namespace Sys2Proof.Machine

/-! ## What the invariants say of a stage and of a requester -/

/-- (I6), read backwards: a receive engine past DISABLED was initialised. -/
theorem State.Inv.initDone_of_rxState {s : State} (h : s.Inv) (hx : s.rxState ≠ .disabled) : s.initDone ≠ false :=
  fun e => hx (h.beforeInit e).1

/-- (I6), read backwards: a block with a request in work was initialised. -/
theorem State.Inv.initDone_of_pst {s : State} {r : Requester} (h : s.Inv) (hp : (s.slot r).pst ≠ .idle) :
    s.initDone ≠ false :=
  fun e => hp ((h.beforeInit e).2 r)

/-- (I3) outside REPLY: RXE is idle and has no response. -/
theorem State.Inv.rxe_quiet {s : State} (h : s.Inv) (hx : s.rxState ≠ .reply) :
    s.rxe.pst = .idle ∧ s.rxe.resp = none := by
  have hn : ¬ (s.rxe.pst ≠ .idle ∨ s.rxe.resp.isSome = true) := fun p => hx (h.replyPending.mp p)
  simpa using hn

/-- (I3) after a change of stage that neither leaves nor enters REPLY. -/
theorem State.Inv.replyPending_of_ne {s : State} {x : RxState} (h : s.Inv) (hs : s.rxState ≠ .reply) (hx : x ≠ .reply) :
    ((s.slot .rxe).pst ≠ .idle ∨ (s.slot .rxe).resp.isSome = true) ↔ x = .reply :=
  ⟨fun p => absurd (h.replyPending.mp p) hs, fun e => absurd e hx⟩

/-- (I2): the lock holder is active. -/
theorem State.Inv.active_of_owned {s : State} {r : Requester} (h : s.Inv) (hl : s.lock = .owned r) :
    (s.slot r).pst = .active :=
  (h.lockActive r).mpr hl

theorem State.Inv.chkWidthOk {s : State} (h : s.Inv) : s.profile.chkWidthOk = true := by
  obtain ⟨-, -, -, hwidth, -⟩ := (Profile.wf_iff _).mp h.profileWf
  exact hwidth

/-! ## Filled cells -/

theorem Memory.filled_zero (m : Memory) : m.filled 0 := fun _ hi => absurd hi (Nat.not_lt_zero _)

theorem Memory.filled_mono {m : Memory} {n k : Nat} (h : m.filled n) (hk : k ≤ n) : m.filled k :=
  fun i hi => h i (Nat.lt_of_lt_of_le hi hk)

/-- A write to the first free cell extends the filled part by it. -/
theorem Memory.filled_write {m : Memory} {n : Nat} (h : m.filled n) (b : Byte) : (m.write n b).filled (n + 1) := by
  intro i hi
  rw [Memory.read_write]
  split
  · rfl
  · exact h i (by omega)

/-- The cells of a list written from cell 0 are filled. -/
theorem Memory.filled_of_memWriteList {size : Nat} {x : List Byte} {m n : Memory}
    (h : memWriteList size m 0 x = .ok n) : n.filled x.length := by
  intro i hi
  rw [memWriteList_read h i, if_pos ⟨Nat.zero_le i, by omega⟩]
  simpa using hi

/-! ## Updates outside the invariants -/

/-- The invariants speak neither of the marks, nor of the returned value, the script and the launch. -/
theorem State.Inv.quiet {s : State} (h : s.Inv) (ret : Option Result) (fault : Option Fault)
    (refused : Option Refusal) (launched : Bool) (script : List OpWord) :
    State.Inv { s with ret := ret, fault := fault, refused := refused, launched := launched, script := script } :=
  { h with }

theorem State.Inv.consume {s : State} (h : s.Inv) : s.consume.Inv := h.quiet ..

theorem State.Inv.launch {s : State} (h : s.Inv) : State.Inv { s with launched := true } := h.quiet ..

theorem State.Inv.refuse {s : State} (h : s.Inv) (r : Refusal) : (s.refuse r).Inv := h.quiet ..

/-! ## Control -/

/-- The reset values of 10_state.md section 5 that the invariants read. -/
structure State.AtReset (s : State) : Prop where
  rxState : s.rxState = .disabled
  rxBuf : s.rxBuf = []
  rxCnt : s.rxCnt = 0
  lock : s.lock = .free
  txPhase : s.txPhase = .idle
  txBuf : s.txBuf = []
  ports : s.ports.length = s.profile.numPorts
  idle : ∀ r, (s.slot r).pst = .idle
  resp : s.rxe.resp = none

theorem State.AtReset.inv {s : State} (h : s.AtReset) (hwf : s.profile.wf = true) : s.Inv where
  profileWf := hwf
  rxCanonical := by rw [h.rxBuf]; exact ⟨rfl, rfl⟩
  txCanonical := by rw [h.txBuf]; exact ⟨rfl, rfl⟩
  portCount := h.ports
  lockPhase := by simp [h.lock, h.txPhase]
  lockActive r := by simp [h.lock, h.idle r]
  replyPending := by
    have hidle : s.rxe.pst = .idle := h.idle .rxe
    simp [State.slot, hidle, h.resp, h.rxState]
  replyAnswered _ := h.idle .rxe
  rxCntBound := by simp [h.rxCnt]
  rxFilled e := by simp [h.rxState] at e
  txBounds e := by simp [h.txPhase] at e
  txFrame e := by simp [h.txPhase] at e
  beforeInit _ := ⟨h.rxState, h.idle⟩
  viewFilled e := by simp [h.rxState] at e

/-- In the reset state every requester is idle, a port number past the list included. -/
theorem State.reset_slot (r : Requester) : State.reset.slot r = Slot.reset := by
  cases r with
  | rxe => rfl
  | ext k =>
    simp only [State.slot, State.reset, List.getElem?_replicate]
    split <;> rfl

theorem State.reset_atReset : State.reset.AtReset :=
  ⟨rfl, rfl, rfl, rfl, rfl, rfl, rfl, fun r => by rw [State.reset_slot]; rfl, rfl⟩

/-- After RESET every requester is idle, a port number past the list included. -/
theorem State.applyReset_slot_pst (s : State) (r : Requester) : (s.applyReset.slot r).pst = .idle := by
  cases r with
  | rxe => rfl
  | ext k =>
    by_cases hk : k < s.profile.numPorts
    · simp [State.slot, State.applyReset, hk, unspecSlot]
    · simp [State.slot, State.applyReset, hk, Slot.reset]

theorem State.applyReset_atReset (s : State) : s.applyReset.AtReset :=
  ⟨rfl, rfl, rfl, rfl, rfl, rfl, by simp [State.applyReset], s.applyReset_slot_pst, rfl⟩

/-- Settles O52: under P0, which is well formed, the reset state holds the reset values. -/
theorem resetMeetsInvariants : Obligations.ResetMeetsInvariants :=
  State.reset_atReset.inv (by decide)

theorem State.Inv.init {s : State} (h : s.Inv) (hi : s.initDone = false) (ret : Option Result) :
    State.Inv { s with initDone := true, rxState := .seek, ret := ret } :=
  { h with
    replyPending := h.replyPending_of_ne (by simp [(h.beforeInit hi).1]) (by simp)
    rxFilled := nofun
    beforeInit := nofun
    viewFilled := nofun }

/-! ## The receive engine -/

/-- The engine goes back to SEEK from a stage other than REPLY: a drop, or the end of a handler's call. -/
theorem State.Inv.seekAgain {s : State} (h : s.Inv) (hd : s.rxState ≠ .disabled) (hr : s.rxState ≠ .reply)
    (errCnt : Word32) (diagHist : List Int) :
    State.Inv { s with errCnt := errCnt, diagHist := diagHist, rxState := .seek } :=
  { h with
    replyPending := h.replyPending_of_ne hr (by simp)
    rxFilled := nofun
    beforeInit := fun e => absurd e (h.initDone_of_rxState hd)
    viewFilled := nofun }

theorem State.Inv.start {s : State} (h : s.Inv) (hx : s.rxState = .seek) :
    State.Inv { s with rxCnt := 0, rxState := .accum } :=
  { h with
    replyPending := h.replyPending_of_ne (by simp [hx]) (by simp)
    rxCntBound := Nat.zero_le _
    rxFilled := fun _ => Memory.filled_zero _
    beforeInit := fun e => absurd e (h.initDone_of_rxState (by simp [hx]))
    viewFilled := nofun }

theorem State.Inv.accum {s : State} (h : s.Inv) (b : Byte) (hx : s.rxState = .accum)
    (hc : s.rxCnt < s.profile.maxFrameSize) :
    State.Inv { s with rxBuf := s.rxBuf.write s.rxCnt b, rxCnt := s.rxCnt + 1 } :=
  { h with
    rxCanonical := ⟨Memory.write_wf _ _ _ h.rxCanonical.1, Memory.write_within _ _ hc h.rxCanonical.2⟩
    rxCntBound := hc
    rxFilled := fun _ => Memory.filled_write (h.rxFilled hx) b
    viewFilled := fun e => by simp [hx] at e }

/-- The view of a dispatched payload ends before the checksum, and is written, since the payload was stored in place. -/
theorem State.Inv.dispatch {s : State} (h : s.Inv) {raw : List Byte} {m : Memory} (cmd : Byte) (hx : s.rxState = .accum)
    (hmin : s.profile.minFrame ≤ raw.length) (hle : raw.length ≤ s.rxCnt)
    (hm : memWriteList s.profile.rxbSize s.rxBuf 0 raw = .ok m) :
    State.Inv { s with rxBuf := m, dispCmd := cmd, dispLen := raw.length - 1 - s.profile.chkW, rxState := .dispatch } :=
  have hview : 1 + (raw.length - 1 - s.profile.chkW) + s.profile.chkW = raw.length := by
    unfold Profile.minFrame at hmin
    omega
  { h with
    rxCanonical := memWriteList_keeps hm h.rxCanonical.1 h.rxCanonical.2
    replyPending := h.replyPending_of_ne (by simp [hx]) (by simp)
    rxFilled := nofun
    beforeInit := fun e => absurd e (h.initDone_of_rxState (by simp [hx]))
    viewFilled := fun _ =>
      ⟨Nat.le_trans (Nat.le_of_eq hview) (Nat.le_trans hle h.rxCntBound),
        Memory.filled_mono (Memory.filled_of_memWriteList hm) (Nat.le_trans (Nat.le_add_right ..) (Nat.le_of_eq hview))⟩ }

/-- The "command rejected" reply is queued in DISPATCH, where RXE is idle and so does not hold the lock. -/
theorem State.Inv.queueReply {s : State} (h : s.Inv) (hx : s.rxState = .dispatch) : (queueReply s).Inv :=
  have hrxe := h.rxe_quiet (by simp [hx])
  have hlock : s.lock ≠ .owned .rxe := fun e => by simpa [State.slot, hrxe.1] using h.active_of_owned e
  { h with
    lockActive := fun
      | .ext k => h.lockActive (.ext k)
      | .rxe => ⟨nofun, fun e => absurd e hlock⟩
    replyPending := ⟨fun _ => rfl, fun _ => .inl (by simp [Machine.queueReply, State.slot])⟩
    replyAnswered := fun e => by simp [Machine.queueReply, State.slot, hrxe.2] at e
    rxFilled := nofun
    beforeInit := fun e => absurd e (h.initDone_of_rxState (by simp [hx]))
    viewFilled := nofun }

/-- The reply's response is taken only once RXE is idle again. -/
theorem State.Inv.replyEnd {s : State} (h : s.Inv) (hx : s.rxState = .reply) (hv : s.rxe.resp.isSome = true)
    (diagHist : List Int) :
    State.Inv { s with diagHist := diagHist, rxe := { s.rxe with resp := none }, rxState := .seek } :=
  have hidle : s.rxe.pst = .idle := h.replyAnswered hv
  { h with
    lockActive := fun
      | .ext k => h.lockActive (.ext k)
      | .rxe => h.lockActive .rxe
    replyPending := by simp [State.slot, hidle]
    replyAnswered := nofun
    rxFilled := nofun
    beforeInit := fun e => absurd e (h.initDone_of_rxState (by simp [hx]))
    viewFilled := nofun }

/-! ## The transmit engine and its arbiter -/

/-- The requester `r` gets the elements `x`, the lock and the phase move with them, and whether another requester holds
the lock does not change: SEND_REQ, TX_GRANT and the release are of this form. -/
theorem State.Inv.move {s : State} {r : Requester} {x : Slot} {l : Lock} {p : TxPhase} (h : s.Inv)
    (hslot : s.hasSlot r) (hinit : s.initDone ≠ false) (hphase : l = .free ↔ p = .idle)
    (hemit : p = .emit → s.txPhase = .emit) (hactive : x.pst = .active ↔ l = .owned r)
    (hothers : ∀ q, q ≠ r → (s.lock = .owned q ↔ l = .owned q))
    (hreply : r = .rxe → ((x.pst ≠ .idle ∨ x.resp.isSome = true) ↔ s.rxState = .reply) ∧
      (x.resp.isSome = true → x.pst = .idle)) :
    (State.setSlot { s with lock := l, txPhase := p } r x).Inv := by
  have hsame : (State.setSlot { s with lock := l, txPhase := p } r x).slot r = x := State.slot_setSlot_same x hslot
  have hother : ∀ q, q ≠ r → (State.setSlot { s with lock := l, txPhase := p } r x).slot q = s.slot q :=
    fun q hq => (State.slot_setSlot_other x hq).trans (State.slot_congr rfl rfl q)
  have hlen := State.setSlot_ports_length { s with lock := l, txPhase := p } r x
  rw [State.setSlot_eq] at hsame hother hlen ⊢
  exact
    { h with
      portCount := hlen.trans h.portCount
      lockPhase := hphase
      lockActive := fun q => by
        by_cases hq : q = r
        · rw [hq, hsame]
          exact hactive
        · rw [hother q hq]
          exact (h.lockActive q).trans (hothers q hq)
      replyPending := by
        by_cases hr : Requester.rxe = r
        · rw [hr, hsame]
          exact (hreply hr.symm).1
        · rw [hother _ hr]
          exact h.replyPending
      replyAnswered := by
        by_cases hr : Requester.rxe = r
        · rw [hr, hsame]
          exact (hreply hr.symm).2
        · rw [hother _ hr]
          exact h.replyAnswered
      txBounds := fun e => h.txBounds (hemit e)
      txFrame := fun e => h.txFrame (hemit e)
      beforeInit := fun e => absurd e hinit }

theorem State.Inv.sendReq {s : State} {p : Nat} (h : s.Inv) (req : Request) (hp : p < s.profile.numPorts)
    (hinit : s.initDone = true) (hidle : (s.slot (.ext p)).pst = .idle) :
    (s.setSlot (.ext p) { pst := .waiting, req := req, resp := none }).Inv := by
  have hfree : s.lock ≠ .owned (.ext p) := fun e => by simpa [hidle] using h.active_of_owned e
  exact h.move (Nat.lt_of_lt_of_eq hp h.portCount.symm) (by simp [hinit]) h.lockPhase id ⟨nofun, fun e => absurd e hfree⟩
    (fun _ _ => Iff.rfl) nofun

theorem State.Inv.grant {s : State} {r : Requester} (h : s.Inv) (hl : s.lock = .free)
    (hw : (s.slot r).pst = .waiting) :
    (State.setSlot { s with lock := .owned r, txPhase := .build } r { s.slot r with pst := .active }).Inv := by
  have hidle : (s.slot r).pst ≠ .idle := by simp [hw]
  refine h.move (State.hasSlot_of_pst hidle) (h.initDone_of_pst hidle) (by simp) nofun (by simp)
    (fun q hq => by simp [hl, Ne.symm hq]) ?_
  rintro rfl
  have hreply : s.rxState = .reply := h.replyPending.mp (.inl hidle)
  have hresp : (s.slot .rxe).resp.isSome ≠ true := fun e => hidle (h.replyAnswered e)
  exact ⟨by simp [hreply], fun e => absurd e hresp⟩

/-- The release of the lock by its holder (R157). -/
theorem State.Inv.release {s : State} {r : Requester} (h : s.Inv) (hl : s.lock = .owned r) (v : Int) :
    (s.release r v).Inv := by
  have hidle : (s.slot r).pst ≠ .idle := by simp [h.active_of_owned hl]
  refine h.move (State.hasSlot_of_pst hidle) (h.initDone_of_pst hidle) (by simp) nofun (by simp)
    (fun q hq => by simp [hl, Ne.symm hq]) ?_
  rintro rfl
  have hreply : s.rxState = .reply := h.replyPending.mp (.inl hidle)
  exact ⟨by simp [hreply], fun _ => rfl⟩

/-- The built frame is in TXB, no longer than TXB and no shorter than the shortest frame. -/
theorem State.Inv.build {s : State} {r : Requester} {cmd : Byte} {param f : List Byte} {m : Memory} (h : s.Inv)
    (hl : s.lock = .owned r) (hf : frameOf s.profile cmd param = .ok f)
    (hm : memWriteList s.profile.txbSize s.txBuf 0 f = .ok m) :
    State.Inv { s with txBuf := m, txLen := f.length, txIdx := 0, txPhase := .emit } :=
  { h with
    txCanonical := memWriteList_keeps hm h.txCanonical.1 h.txCanonical.2
    lockPhase := by simp [hl]
    txBounds := fun _ => ⟨Nat.zero_le _, frameOf_length_le hf⟩
    txFrame := fun _ => ⟨frameOf_length_ge h.chkWidthOk hf, Memory.filled_of_memWriteList hm⟩ }

theorem State.Inv.emit {s : State} (h : s.Inv) (hp : s.txPhase = .emit) (hi : s.txIdx < s.txLen)
    (outHist : List Byte) : State.Inv { s with outHist := outHist, txIdx := s.txIdx + 1 } :=
  { h with txBounds := fun _ => ⟨hi, (h.txBounds hp).2⟩ }

/-! ## Every step -/

theorem Effect.inv {s t : State} {i : Instr} (h : Effect s i t) (hs : s.Inv) : t.Inv := by
  cases h with
  | quiet => exact hs.quiet ..
  | reset hwf => exact s.applyReset_atReset.inv hwf
  | init _ _ hi => exact hs.init hi _
  | seek hx => exact hs.start hx
  | accum b hx _ hc => exact hs.accum b hx hc
  | overflow _ hx | stopDrop _ hx | report _ hx | handled _ hx =>
    exact hs.seekAgain (by simp [hx]) (by simp [hx]) _ _
  | stopDispatch cmd _ _ hx hmin hle hm => exact hs.dispatch cmd hx hmin hle hm
  | queueReply hx => exact hs.queueReply hx
  | replyEnd _ hx hv => exact hs.replyEnd hx (by simp [hv]) _
  | sendReq _ _ _ hp hi hidle => exact hs.sendReq _ hp hi hidle
  | grant _ hl _ hw => exact hs.grant hl hw
  | buildFails _ _ _ hl | abort _ _ hl | complete _ _ hl => exact hs.release hl _
  | build _ _ _ _ hl hf hm => exact hs.build hl hf hm
  | emit _ _ hp _ hi => exact hs.emit hp hi _

theorem exec_keeps_inv {i : Instr} {s t : State} (hs : s.Inv) (h : exec i s = .next t) : t.Inv :=
  (exec_effect h).inv hs

/-- Settles O53: a step takes an operation, waits, or records a refusal, and each keeps the invariants. -/
theorem stepKeepsInvariants : Obligations.StepKeepsInvariants := by
  intro s t hs h
  obtain ⟨-, rfl, -⟩ | ⟨-, -, i, u, -, -, -, hu, rfl⟩ | ⟨-, -, i, -, -, -, hi⟩ | ⟨-, -, -, -, -, -, rfl⟩ := step_cases h
  · exact hs
  · exact (exec_keeps_inv hs.consume hu).launch
  · exact exec_keeps_inv hs hi
  · exact (hs.consume.refuse .reservedOp).launch

end Sys2Proof.Machine

/-! Who writes the two buffers and the channel (20_memory.md R52, R53, R57, R64), and why no step reads an unwritten cell
or indexes past a buffer (R51). -/

namespace Sys2Proof.Machine

/-! ## The writers of RXB, TXB and the channel -/

/-- R52: RXB is written in ACCUM alone, where RX_ACCUM stores a byte and RX_STOP the payload. -/
theorem Effect.rxBuf {s t : State} {i : Instr} (h : Effect s i t) (hi : i ≠ .reset) :
    t.rxBuf = s.rxBuf ∨ (s.rxState = .accum ∧ ∃ b, i = .rxAccum b ∨ i = .rxStop b) := by
  cases h with
  | reset => exact absurd rfl hi
  | accum b hx => exact .inr ⟨hx, b, .inl rfl⟩
  | stopDispatch _ _ _ hx => exact .inr ⟨hx, _, .inr rfl⟩
  | sendReq | grant => exact .inl (State.setSlot_rxBuf ..)
  | buildFails | abort | complete => exact .inl (State.release_rxBuf ..)
  | quiet | init | seek | overflow | stopDrop | queueReply | report | handled | replyEnd | build | emit =>
    exact .inl rfl

/-- R53: TXB is written by TX_BUILD alone, for the lock holder. -/
theorem Effect.txBuf {s t : State} {i : Instr} (h : Effect s i t) (hi : i ≠ .reset) :
    t.txBuf = s.txBuf ∨ (i = .txBuild ∧ ∃ r, s.lock = .owned r) := by
  cases h with
  | reset => exact absurd rfl hi
  | build r _ _ _ hl => exact .inr ⟨rfl, r, hl⟩
  | sendReq | grant => exact .inl (State.setSlot_txBuf ..)
  | buildFails | abort | complete => exact .inl (State.release_txBuf ..)
  | quiet | init | seek | accum | overflow | stopDrop | stopDispatch | queueReply | report | handled | replyEnd
  | emit => exact .inl rfl

/-- R57: what was emitted stays, and TX_EMIT alone appends to it, one byte, for the lock holder. -/
theorem Effect.outHist {s t : State} {i : Instr} (h : Effect s i t) (hi : i ≠ .reset) :
    t.outHist = s.outHist ∨ (i = .txEmit ∧ (∃ r, s.lock = .owned r) ∧ ∃ b, t.outHist = s.outHist ++ [b]) := by
  cases h with
  | reset => exact absurd rfl hi
  | emit r b _ hl => exact .inr ⟨rfl, ⟨r, hl⟩, b, rfl⟩
  | sendReq | grant => exact .inl (State.setSlot_outHist ..)
  | buildFails | abort | complete => exact .inl (State.release_outHist ..)
  | quiet | init | seek | accum | overflow | stopDrop | stopDispatch | queueReply | report | handled | replyEnd
  | build => exact .inl rfl

/-- Settles O38: the two writers of RXB act in ACCUM, so neither acts in DISPATCH. -/
theorem onlyReceiveWritesRxBuf : Obligations.OnlyReceiveWritesRxBuf := by
  intro i s t hi h
  obtain hsame | ⟨haccum, b, hwriter⟩ := (exec_effect h).rxBuf hi
  · exact ⟨fun _ => hsame, fun _ => hsame⟩
  · refine ⟨fun hother => ?_, fun hdispatch => ?_⟩
    · exact hwriter.elim (fun e => absurd e (hother b).1) (fun e => absurd e (hother b).2)
    · simp [haccum] at hdispatch

/-- Settles O39: TX_BUILD is the one writer of TXB, and TX_EMIT the one writer of the channel. -/
theorem onlyTransmitEngineWrites : Obligations.OnlyTransmitEngineWrites :=
  fun _ _ _ hi h => ⟨(exec_effect h).txBuf hi, (exec_effect h).outHist hi⟩

/-! ## The cells that the operations read are written -/

/-- A cell of a filled part that lies in the space can be read. -/
theorem Memory.memRead_of_filled {size n i : Nat} {m : Memory} (h : m.filled n) (hi : i < n) (hn : n ≤ size) :
    ∃ b, memRead size m i = .ok b := by
  obtain ⟨b, hb⟩ := Option.isSome_iff_exists.mp (h i hi)
  exact ⟨b, memRead_eq_ok.mpr ⟨Nat.lt_of_lt_of_le hi hn, hb⟩⟩

/-- (I4): the body that RX_STOP reads is written. -/
theorem State.Inv.readable_body {s : State} (h : s.Inv) (hx : s.rxState = .accum) :
    ∃ x, memReadList s.profile.rxbSize s.rxBuf 0 s.rxCnt = .ok x :=
  memReadList_of_filled h.rxCntBound (h.rxFilled hx)

/-- Every byte of the handler's view is written (R137). -/
theorem State.Inv.readable_view {s : State} {i : Nat} (h : s.Inv) (hx : s.rxState = .dispatch) (hi : i < s.dispLen) :
    ∃ b, memRead s.profile.rxbSize s.rxBuf (1 + i) = .ok b := by
  obtain ⟨hsize, hfilled⟩ := h.viewFilled hx
  exact Memory.memRead_of_filled hfilled (Nat.add_lt_add_left hi 1) (Nat.le_of_add_right_le hsize)

/-- (I5): the next byte that TX_EMIT sends is written. -/
theorem State.Inv.readable_frame {s : State} (h : s.Inv) (hp : s.txPhase = .emit) (hi : s.txIdx < s.txLen) :
    ∃ b, memRead s.profile.txbSize s.txBuf s.txIdx = .ok b :=
  Memory.memRead_of_filled (h.txFrame hp).2 hi (h.txBounds hp).2

/-! ## No operation records a fault of a cell access -/

/-- Neither of the two faults of R51 is recorded. -/
def State.NoCellFault (s : State) : Prop := s.fault ≠ some .bufferIndexOutOfRange ∧ s.fault ≠ some .unwrittenRead

theorem State.noCellFault_of_none {s : State} (h : s.fault = none) : s.NoCellFault := by
  simp [State.NoCellFault, h]

/-- Recording a misuse records no fault of a cell access. -/
theorem State.noCellFault_fail {s : State} {f : Fault} (h : s.fault = none)
    (hf : f ≠ .bufferIndexOutOfRange ∧ f ≠ .unwrittenRead) : (s.fail f).NoCellFault := by
  simpa [State.NoCellFault, h] using hf

theorem execRxStop_noCellFault {s t : State} {b : Byte} (hs : s.Inv) (hf : s.fault = none)
    (h : execRxStop b s = .next t) : t.NoCellFault := by
  obtain ⟨-, rfl | ⟨hx, -, ⟨f, herr, -⟩ | ⟨-, -, ⟨e, -, -, rfl⟩ | ⟨cmd, rest, m, -, -, -, -, -, rfl⟩⟩⟩⟩ :=
    execRxStop_cases h
  · exact State.noCellFault_of_none hf
  · obtain ⟨x, hok⟩ := hs.readable_body hx
    simp [hok] at herr
  · exact State.noCellFault_of_none hf
  · exact State.noCellFault_of_none hf

theorem execHParamRead_noCellFault {s t : State} {k : Nat} (hs : s.Inv) (hf : s.fault = none)
    (h : execHParamRead k s = .next t) : t.NoCellFault := by
  obtain ⟨-, ⟨-, rfl⟩ | ⟨-, -, rfl⟩ | ⟨hx, hk, ⟨f, herr, -⟩ | ⟨b, -, rfl⟩⟩⟩ := execHParamRead_cases h
  · exact State.noCellFault_fail hf (by decide)
  · exact State.noCellFault_fail hf (by decide)
  · obtain ⟨b, hok⟩ := hs.readable_view hx hk
    simp [hok] at herr
  · exact State.noCellFault_of_none hf

theorem execTxEmit_noCellFault {s t : State} (hs : s.Inv) (hf : s.fault = none)
    (h : execTxEmit s = .next t) : t.NoCellFault := by
  obtain ⟨-, ⟨hp, hi, -, ⟨f, herr, -⟩ | ⟨b, -, rfl⟩⟩ | rfl⟩ := execTxEmit_cases h
  · obtain ⟨b, hok⟩ := hs.readable_frame hp hi
    simp [hok] at herr
  · exact State.noCellFault_of_none hf
  · exact State.noCellFault_of_none hf

theorem execHReturn_noCellFault {s t : State} {v : Int} (hf : s.fault = none) (h : execHReturn v s = .next t) :
    t.NoCellFault := by
  obtain ⟨-, ⟨-, rfl⟩ | ⟨-, -, rfl⟩ | ⟨-, -, -, rfl⟩ | ⟨-, -, rfl⟩⟩ := execHReturn_cases h
  · exact State.noCellFault_fail hf (by decide)
  · exact State.noCellFault_of_none hf
  · exact State.noCellFault_of_none hf
  · exact State.noCellFault_of_none hf

theorem execSendReq_noCellFault {s t : State} {p : Nat} {cmd : Byte} {param : List Byte} (hf : s.fault = none)
    (h : execSendReq p cmd param s = .next t) : t.NoCellFault := by
  obtain ⟨-, ⟨-, rfl⟩ | ⟨-, -, rfl⟩ | ⟨-, -, -, rfl⟩ | ⟨-, -, -, rfl⟩⟩ := execSendReq_cases h
  · exact State.noCellFault_of_none hf
  · exact State.noCellFault_fail hf (by decide)
  · exact State.noCellFault_fail hf (by decide)
  · exact State.noCellFault_of_none ((State.setSlot_fault ..).trans hf)

/-- TX_BUILD writes a frame that fits (`buildFor_cases`). -/
theorem execTxBuild_noCellFault {s t : State} (hf : s.fault = none) (h : execTxBuild s = .next t) :
    t.NoCellFault := by
  obtain ⟨-, ⟨-, r, -, rfl⟩ | rfl⟩ := execTxBuild_cases h
  · obtain ⟨e, -, hb⟩ | ⟨f, m, -, -, hb⟩ := buildFor_cases s r
    · exact State.noCellFault_of_none (hb ▸ (State.release_fault ..).trans hf)
    · exact State.noCellFault_of_none (hb ▸ hf)
  · exact State.noCellFault_of_none hf

/-- A codec or message operation records no fault, but for DECODE_CMD of an empty list (R122). -/
theorem exec_pure_noCellFault {i : Instr} {s t : State} (hf : s.fault = none)
    (hi : i.agent = .codec ∨ i.agent = .message) (h : exec i s = .next t) :
    t.NoCellFault ∨ (i = .decodeCmd [] ∧ t.fault = some .unwrittenRead) := by
  obtain ⟨-, ⟨v, rfl⟩ | ⟨hd, rfl⟩⟩ := exec_pure_cases hi h
  · exact .inl (State.noCellFault_of_none hf)
  · exact .inr ⟨hd, by simp [hf]⟩

/-- R51: under the invariants no operation records a fault of a cell access, but DECODE_CMD of an empty list. -/
theorem exec_noCellFault {i : Instr} {s t : State} (hs : s.Inv) (hf : s.fault = none) (h : exec i s = .next t) :
    t.NoCellFault ∨ (i = .decodeCmd [] ∧ t.fault = some .unwrittenRead) := by
  have hkeep {u : State} (hu : u.fault = s.fault) : u.NoCellFault := State.noCellFault_of_none (hu.trans hf)
  cases i with
  | delimClass | chkGen | chkVerify | stuffByte | stuff | destuff | delimWrap | stuffAndChecksum | destuffAndVerify =>
    exact exec_pure_noCellFault hf (.inl rfl) h
  | encode | decodeCmd | decodeParam => exact exec_pure_noCellFault hf (.inr rfl) h
  | reset =>
    obtain ⟨-, -, rfl⟩ | ⟨-, -, rfl⟩ | ⟨-, -, rfl⟩ := execReset_cases h
    · exact .inl (hkeep rfl)
    · exact .inl (State.noCellFault_of_none rfl)
    · exact .inl (hkeep rfl)
  | init n p d =>
    obtain ⟨-, ⟨-, rfl⟩ | ⟨-, -, rfl⟩ | ⟨-, -, rfl⟩⟩ := execInit_cases (a := n) (b := p) h
    · exact .inl (State.noCellFault_fail hf (by decide))
    · exact .inl (hkeep rfl)
    · exact .inl (hkeep rfl)
  | statusRead =>
    injection h with h
    exact .inl (hkeep (h ▸ rfl))
  | rxSeek b =>
    obtain ⟨-, ⟨-, -, rfl⟩ | rfl⟩ := execRxSeek_cases h <;> exact .inl (hkeep rfl)
  | rxAccum b =>
    obtain ⟨-, ⟨-, -, -, rfl⟩ | rfl⟩ := execRxAccum_cases h <;> exact .inl (hkeep rfl)
  | rxOverflow b =>
    obtain ⟨-, ⟨-, -, -, rfl⟩ | rfl⟩ := execRxOverflow_cases h <;> exact .inl (hkeep rfl)
  | rxStop b => exact .inl (execRxStop_noCellFault hs hf h)
  | hParamRead k => exact .inl (execHParamRead_noCellFault hs hf h)
  | hReturn v => exact .inl (execHReturn_noCellFault hf h)
  | rxReplyEnd =>
    obtain ⟨-, ⟨-, v, -, rfl⟩ | rfl⟩ := execRxReplyEnd_cases h <;> exact .inl (hkeep rfl)
  | sendReq p cmd param => exact .inl (execSendReq_noCellFault hf h)
  | txGrant r =>
    obtain ⟨-, ⟨-, -, -, rfl⟩ | rfl⟩ := execTxGrant_cases h
    · exact .inl (hkeep (State.setSlot_fault ..))
    · exact .inl (hkeep rfl)
  | txBuild => exact .inl (execTxBuild_noCellFault hf h)
  | txEmit => exact .inl (execTxEmit_noCellFault hs hf h)
  | txAbort =>
    obtain ⟨-, ⟨-, -, r, -, rfl⟩ | rfl⟩ := execTxAbort_cases h
    · exact .inl (hkeep (State.release_fault ..))
    · exact .inl (hkeep rfl)
  | txComplete =>
    obtain ⟨-, ⟨-, -, r, -, rfl⟩ | rfl⟩ := execTxComplete_cases h
    · exact .inl (hkeep (State.release_fault ..))
    · exact .inl (hkeep rfl)

/-- The same of a step: a fault of a cell access comes from a DECODE_CMD of an empty list at the head of the script. -/
theorem step_noCellFault {s t : State} (hs : s.Inv) (hf : s.fault = none) (h : step s = .next t) :
    t.NoCellFault ∨ ((∃ w, s.script.head? = some w ∧ decode w = .ok (.decodeCmd [])) ∧ t.fault = some .unwrittenRead) := by
  obtain ⟨-, rfl, -⟩ | ⟨w, rest, i, u, hw, hd, -, hu, rfl⟩ | ⟨w, rest, i, hw, hd, -, hi⟩ | ⟨-, -, -, -, -, -, rfl⟩ :=
    step_cases h
  · exact .inl (State.noCellFault_of_none hf)
  · exact (exec_noCellFault hs.consume hf hu).imp_right fun ⟨e, hfault⟩ => ⟨⟨w, by simp [hw], e ▸ hd⟩, hfault⟩
  · exact (exec_noCellFault hs hf hi).imp_right fun ⟨e, hfault⟩ => ⟨⟨w, by simp [hw], e ▸ hd⟩, hfault⟩
  · exact .inl (State.noCellFault_of_none hf)

/-- Settles O54: (I4), (I5) and the filled view make every cell that is read a written one inside its buffer. -/
theorem bufferGuardsAreUnreachable : Obligations.BufferGuardsAreUnreachable := by
  intro s t hs hf h
  obtain ⟨hindex, hread⟩ | ⟨hhead, hfault⟩ := step_noCellFault hs hf h
  · exact ⟨hindex, fun e => absurd e hread⟩
  · exact ⟨by simp [hfault], fun _ => hhead⟩

end Sys2Proof.Machine

/-! The decoder and the encoder agree (30_encoding.md R80, R81), and a reserved tag is refused (R82). -/

namespace Sys2Proof.Machine

/-! ## The word of an operation -/

theorem decode_eq_ok {w : OpWord} {i : Instr} : decode w = .ok i ↔ decodeGroup w = some i := by
  unfold decode
  cases decodeGroup w <;> simp

/-- Decoding the word of an operation gives the operation back, with its operands: the tag selects the operation's group
and its arm there, and that arm reads the lanes that the encoder filled. -/
theorem decode_encode (i : Instr) : decode (encode i) = .ok i := by
  rw [decode_eq_ok, decodeGroup]
  cases i with
  | reset | init | statusRead => simp [encode, Instr.tag, tagGroup, tagIndex, decodeControl]
  | delimClass | chkGen | chkVerify | stuffByte | stuff | destuff | delimWrap | stuffAndChecksum | destuffAndVerify =>
    simp [encode, Instr.tag, tagGroup, tagIndex, decodeCodec]
  | encode | decodeCmd | decodeParam => simp [encode, Instr.tag, tagGroup, tagIndex, decodeMessage]
  | rxSeek | rxAccum | rxOverflow | rxStop | hParamRead | hReturn | rxReplyEnd =>
    simp [encode, Instr.tag, tagGroup, tagIndex, decodeReceive]
  | sendReq | txGrant | txBuild | txEmit | txAbort | txComplete =>
    simp [encode, Instr.tag, tagGroup, tagIndex, decodeTransmit]

/-- R81's list holds the tag of every operation, and its word carries that tag. -/
theorem tagListed (i : Instr) : Laws.TagListed.Statement i :=
  match i with
  | .reset => Laws.TagListed.reset
  | .init n p d => Laws.TagListed.init n p d
  | .statusRead => Laws.TagListed.statusRead
  | .delimClass b => Laws.TagListed.delimClass b
  | .chkGen x => Laws.TagListed.chkGen x
  | .chkVerify x => Laws.TagListed.chkVerify x
  | .stuffByte b => Laws.TagListed.stuffByte b
  | .stuff x => Laws.TagListed.stuff x
  | .destuff x => Laws.TagListed.destuff x
  | .delimWrap x => Laws.TagListed.delimWrap x
  | .stuffAndChecksum x => Laws.TagListed.stuffAndChecksum x
  | .destuffAndVerify x => Laws.TagListed.destuffAndVerify x
  | .encode cmd param => Laws.TagListed.encode cmd param
  | .decodeCmd x => Laws.TagListed.decodeCmd x
  | .decodeParam x n => Laws.TagListed.decodeParam x n
  | .rxSeek b => Laws.TagListed.rxSeek b
  | .rxAccum b => Laws.TagListed.rxAccum b
  | .rxOverflow b => Laws.TagListed.rxOverflow b
  | .rxStop b => Laws.TagListed.rxStop b
  | .hParamRead k => Laws.TagListed.hParamRead k
  | .hReturn v => Laws.TagListed.hReturn v
  | .rxReplyEnd => Laws.TagListed.rxReplyEnd
  | .sendReq p cmd param => Laws.TagListed.sendReq p cmd param
  | .txGrant r => Laws.TagListed.txGrant r
  | .txBuild => Laws.TagListed.txBuild
  | .txEmit => Laws.TagListed.txEmit
  | .txAbort => Laws.TagListed.txAbort
  | .txComplete => Laws.TagListed.txComplete

/-- Each operand lane of `v` is that of `w`, or zero. -/
structure LanesFrom (w v : OpWord) : Prop where
  byte : v.byte = w.byte ∨ v.byte = 0
  bytes : v.bytes = w.bytes ∨ v.bytes = []
  nat : v.nat = w.nat ∨ v.nat = 0
  nat2 : v.nat2 = w.nat2 ∨ v.nat2 = 0
  status : v.status = w.status ∨ v.status = 0
  requester : v.requester = w.requester ∨ v.requester = .ext 0
  draw : v.draw = w.draw ∨ v.draw = .ok

/-- Each arm of the decoder fills its operation from lanes of the word, and the encoder puts them back. -/
theorem lanes_of_decodeGroup {w : OpWord} {i : Instr} (h : decodeGroup w = some i) : LanesFrom w (encode i) := by
  simp only [decodeGroup, decodeControl, decodeCodec, decodeMessage, decodeReceive, decodeTransmit] at h
  repeat' split at h
  all_goals cases h
  all_goals constructor <;> simp [encode]

/-- Settles O50: the tag comes back by `tag_of_decode`, the lanes by the arm of the decoder that was taken. -/
theorem operationWordsRoundTrip : Obligations.OperationWordsRoundTrip := by
  refine ⟨decode_encode, fun w i h => ?_⟩
  have hl : LanesFrom w (encode i) := lanes_of_decodeGroup (decode_eq_ok.mp h)
  exact ⟨(tagListed i).1.trans (tag_of_decode h).symm, hl.byte, hl.bytes, hl.nat, hl.nat2, hl.status, hl.requester,
    hl.draw⟩

/-- Settles O48: each tag, as written, is that of the operation's own word. -/
theorem tagsDecodeAsWritten : Obligations.TagsDecodeAsWritten :=
  ⟨decode_encode .reset, decode_encode (.init 512 3 .fail), decode_encode (.destuff [0x10, 0x22]),
    decode_encode (.decodeParam [0x05, 0x05] 2), decode_encode (.hReturn (-5)), decode_encode (.txGrant .rxe)⟩

/-! ## A reserved tag -/

/-- A word that decodes has a listed tag, so every other word is rejected with its tag. -/
theorem decode_of_unlisted {w : OpWord}
    (h : w.tag.toNat ∉ [0x00, 0x01, 0x02, 0x10, 0x11, 0x12, 0x13, 0x14, 0x15, 0x16, 0x17, 0x18, 0x20, 0x21, 0x22,
      0x30, 0x31, 0x32, 0x33, 0x34, 0x35, 0x36, 0x40, 0x41, 0x42, 0x43, 0x44, 0x45]) :
    decode w = .error (.reservedOp w.tag) := by
  cases hd : decode w with
  | ok i => exact absurd (tag_of_decode hd ▸ (tagListed i).2) h
  | error e => rw [decode_error hd]

/-- The step that meets a word with a reserved tag takes it and records the refusal. -/
theorem step_of_reserved {s : State} {w : OpWord} {rest : List OpWord} {e : DecodeError} (hs : s.script = w :: rest)
    (hd : decode w = .error e) (hr : s.running = true) :
    step s = .next { s with script := rest, launched := true, refused := some .reservedOp } := by
  have hnone : s.refused = none := ((State.running_iff s).mp hr).2
  simp only [step, takeNext, hs, hd, takeReserved, whenRunning_of_running _ hr, retire_next, State.consume_of_script hs,
    State.refuse, hnone, Option.none_or]

/-- Settles O49: the tag is not one of a word that decodes, so the step is the refusal. -/
theorem reservedTagIsRefused : Obligations.ReservedTagIsRefused := by
  intro s w rest hr hs htag
  have hd := decode_of_unlisted htag
  exact ⟨hd, step_of_reserved hs hd hr⟩

end Sys2Proof.Machine

/-! The stuffing code of a profile (30_encoding.md R74), the receive operation that a byte selects, and the operations
that write nothing (R81). -/

namespace Sys2Proof.Machine

/-- R74: the stuffing code byte by byte, for every profile. -/
theorem stuffByte_eq (P : Profile) (b : Byte) :
    stuffByte P b
      = if b = P.start then [P.esc, P.escStart] else if b = P.stop then [P.esc, P.escStop]
        else if b = P.esc then [P.esc, P.escEsc] else [b] := by
  by_cases hstart : b = P.start
  · rw [stuffByte_of_mem ((P.mem_rsv b).mpr (.inl hstart)), Profile.escMap, if_pos hstart, if_pos hstart]
  · rw [if_neg hstart]
    by_cases hstop : b = P.stop
    · rw [stuffByte_of_mem ((P.mem_rsv b).mpr (.inr (.inl hstop))), Profile.escMap, if_neg hstart, if_pos hstop,
        if_pos hstop]
    · rw [if_neg hstop]
      by_cases hesc : b = P.esc
      · rw [stuffByte_of_mem ((P.mem_rsv b).mpr (.inr (.inr hesc))), Profile.escMap, if_neg hstart, if_neg hstop,
          if_pos hesc]
      · have hdata : b ∉ P.rsv := fun h => ((P.mem_rsv b).mp h).elim hstart (·.elim hstop hesc)
        rw [stuffByte_of_not_mem hdata, if_neg hesc]

/-- Settles O7: the table under P0 is `stuffByte_eq` and R101's classes, at P0's six bytes. -/
theorem defaultStuffingTable : Obligations.DefaultStuffingTable :=
  fun b => ⟨stuffByte_eq Profile.p0 b, rfl⟩

/-! ## The guards of the receive operations -/

@[simp] theorem guardOf_rxSeek {s : State} {b : Byte} : guardOf (.rxSeek b) s = true ↔ s.rxState = .seek :=
  decide_eq_true_iff

@[simp] theorem guardOf_rxAccum {s : State} {b : Byte} :
    guardOf (.rxAccum b) s = true ↔ s.rxState = .accum ∧ b ≠ s.profile.stop ∧ s.rxCnt < s.profile.maxFrameSize :=
  decide_eq_true_iff

@[simp] theorem guardOf_rxOverflow {s : State} {b : Byte} :
    guardOf (.rxOverflow b) s = true ↔ s.rxState = .accum ∧ b ≠ s.profile.stop ∧ s.rxCnt = s.profile.maxFrameSize :=
  decide_eq_true_iff

@[simp] theorem guardOf_rxStop {s : State} {b : Byte} :
    guardOf (.rxStop b) s = true ↔ s.rxState = .accum ∧ b = s.profile.stop :=
  decide_eq_true_iff

/-- R81, R130: while rx_cnt is in its range, the guard of a receive operation holds exactly where the stage and the byte
select that operation. -/
theorem guardOf_receive_iff {s : State} {b : Byte} {j : Instr} (hc : s.rxCnt ≤ s.profile.maxFrameSize)
    (hj : j = .rxSeek b ∨ j = .rxAccum b ∨ j = .rxOverflow b ∨ j = .rxStop b) :
    guardOf j s = true ↔ rxSelect s b = some j := by
  cases hx : s.rxState with
  | disabled | seek | dispatch | reply => obtain rfl | rfl | rfl | rfl := hj <;> simp [rxSelect, hx]
  | accum =>
    by_cases hstop : b = s.profile.stop
    · obtain rfl | rfl | rfl | rfl := hj <;> simp [rxSelect, hx, hstop]
    · obtain hfree | hfull := Nat.lt_or_eq_of_le hc
      · obtain rfl | rfl | rfl | rfl := hj <;> simp [rxSelect, hx, hstop, hfree, Nat.ne_of_lt hfree]
      · obtain rfl | rfl | rfl | rfl := hj <;> simp [rxSelect, hx, hstop, hfull]

/-- A byte is taken in SEEK and in ACCUM. -/
theorem rxSelect_eq_some {s : State} (b : Byte) (hx : s.rxState = .seek ∨ s.rxState = .accum) :
    ∃ i, rxSelect s b = some i := by
  rw [← Option.isSome_iff_exists]
  obtain hx | hx := hx
  · simp [rxSelect, hx]
  · simp only [rxSelect, hx]
    split
    · rfl
    · split <;> rfl

/-- In every other stage no byte is taken. -/
theorem rxSelect_eq_none {s : State} (b : Byte)
    (hx : s.rxState = .disabled ∨ s.rxState = .dispatch ∨ s.rxState = .reply) : rxSelect s b = none := by
  obtain hx | hx | hx := hx <;> simp [rxSelect, hx]

/-- Settles O46: the operation is the selected one, whose guard alone holds. -/
theorem exactlyOneReceiveOperation : Obligations.ExactlyOneReceiveOperation := by
  intro s b hc
  refine ⟨fun hx => ?_, fun hx => ?_⟩
  · obtain ⟨i, hi⟩ := rxSelect_eq_some b hx
    refine ⟨i, hi, fun j hj => ?_⟩
    rw [guardOf_receive_iff hc hj, hi, Option.some_inj]
    exact eq_comm
  · have hnone := rxSelect_eq_none b hx
    refine ⟨hnone, fun j hj => ?_⟩
    rw [Bool.eq_false_iff, Ne, guardOf_receive_iff hc hj, hnone]
    exact nofun

/-! ## The operations that write nothing -/

/-- `t` is `s` but for the value returned and the fault mark. -/
def SameBlock (s t : State) : Prop := ∃ ret fault, t = { s with ret := ret, fault := fault }

theorem SameBlock.returns (s : State) (v : Result) : SameBlock s (s.returns v) := ⟨_, _, rfl⟩

theorem SameBlock.fail (s : State) (f : Fault) : SameBlock s (s.fail f) := ⟨_, _, rfl⟩

theorem exec_pure_sameBlock {i : Instr} {s t : State} (hi : i.agent = .codec ∨ i.agent = .message)
    (h : exec i s = .next t) : SameBlock s t := by
  obtain ⟨-, ⟨v, rfl⟩ | ⟨-, rfl⟩⟩ := exec_pure_cases hi h
  · exact .returns s v
  · exact .fail s .unwrittenRead

theorem execHParamRead_sameBlock {s t : State} {k : Nat} (h : execHParamRead k s = .next t) : SameBlock s t := by
  obtain ⟨-, ⟨-, rfl⟩ | ⟨-, -, rfl⟩ | ⟨-, -, ⟨f, -, rfl⟩ | ⟨b, -, rfl⟩⟩⟩ := execHParamRead_cases h
  · exact .fail ..
  · exact .fail ..
  · exact .fail ..
  · exact .returns ..

/-- Settles O32: each of these operations returns a value or records a fault. -/
theorem pureOperationsWriteNothing : Obligations.PureOperationsWriteNothing := by
  intro i s t hi h
  have hsame : SameBlock s t := by
    obtain hi | hi | rfl | ⟨k, rfl⟩ := hi
    · exact exec_pure_sameBlock (.inl hi) h
    · exact exec_pure_sameBlock (.inr hi) h
    · injection h with h
      exact h ▸ .returns ..
    · exact execHParamRead_sameBlock h
  obtain ⟨ret, fault, rfl⟩ := hsame
  exact ⟨rfl, fun _ => ⟨rfl, rfl⟩⟩

end Sys2Proof.Machine

/-! Destuffing undoes stuffing (40_codec.md R107), and a built frame's body passes its checks (R110). -/

namespace Sys2Proof.Machine

/-- No stuffed byte is STOP: an escape pair is ESC and a code outside RSV (R9 b), and a byte outside RSV is itself. -/
theorem stop_not_mem_stuffByte {P : Profile} (h : P.wf = true) (b : Byte) : P.stop ∉ stuffByte P b := by
  obtain ⟨⟨-, -, hse⟩, hcode, -⟩ := (Profile.wf_iff P).mp h
  have hstop : P.stop ∈ P.rsv := (P.mem_rsv _).mpr (.inr (.inl rfl))
  by_cases hb : b ∈ P.rsv
  · have hne : P.stop ≠ P.escMap b := fun e => hcode b hb (e ▸ hstop)
    simp [stuffByte_of_mem hb, hse, hne]
  · have hne : P.stop ≠ b := fun e => hb (e ▸ hstop)
    simp [stuffByte_of_not_mem hb, hne]

theorem stop_not_mem_stuff {P : Profile} (h : P.wf = true) (x : List Byte) : P.stop ∉ stuff P x := by
  induction x with
  | nil => simp
  | cons b x ih => simp [stop_not_mem_stuffByte h b, ih]

/-- R107: DESTUFF undoes STUFF under WF(P). -/
theorem destuff_stuff {P : Profile} (h : P.wf = true) (x : List Byte) : destuff P (stuff P x) = some x := by
  induction x with
  | nil => rfl
  | cons b x ih =>
    by_cases hb : b ∈ P.rsv
    · simp [stuffByte_of_mem hb, destuff_pair P _ _ (delimClass_esc h), Profile.unesc_escMap h hb, ih]
    · simp [stuffByte_of_not_mem hb, destuff_data (delimClass_eq_data.mpr hb), ih]

/-- R104: the checksum field of a payload verifies. -/
theorem chkVerify_rawOf {P : Profile} (h : P.chkWidthOk = true) {body : List Byte} (hb : body ≠ []) :
    chkVerify P (rawOf P body) = true := by
  have hlen := Profile.checksum_length h body
  have hpos : 0 < body.length := List.length_pos_iff.mpr hb
  have hmin : P.minFrame ≤ body.length + P.chkW := by
    unfold Profile.minFrame
    omega
  simp [chkVerify, hlen, hmin]

/-- R110: the stuffed payload of a body that is not empty is accepted, and gives the payload back. -/
theorem destuffAndVerify_stuff {P : Profile} (h : P.wf = true) {body : List Byte} (hb : body ≠ []) :
    destuffAndVerify P (stuff P (rawOf P body)) = .ok (rawOf P body) := by
  obtain ⟨-, -, -, hwidth, -⟩ := (Profile.wf_iff P).mp h
  have hpos : 0 < body.length := List.length_pos_iff.mpr hb
  have hmin : P.minFrame ≤ (rawOf P body).length := by
    rw [List.length_append, Profile.checksum_length hwidth, Profile.minFrame]
    omega
  exact destuffAndVerify_eq_ok.mpr
    ⟨Nat.le_trans hmin (length_le_stuff P _), destuff_stuff h _, hmin, chkVerify_rawOf hwidth hb⟩

/-- A list written to a space reads back. -/
theorem memReadList_memWriteList {size i : Nat} {x : List Byte} {m n : Memory} (hfit : i + x.length ≤ size)
    (h : memWriteList size m i x = .ok n) : memReadList size n i x.length = .ok x := by
  refine memReadList_eq_ok.mpr ⟨rfl, fun k hk => ⟨by omega, ?_⟩⟩
  rw [memWriteList_read h, if_pos (by omega), Nat.add_sub_cancel_left]

end Sys2Proof.Machine

/-! The bytes of a built frame, taken one by one (42_receive.md R131 to R134). -/

namespace Sys2Proof.Machine

/-! ## One byte -/

/-- A byte whose selected operation is enabled is taken, and the run goes on from the state that operation leaves. -/
theorem runLines_rx {s t : State} {b : Byte} {i : Instr} (rest : List Byte) (hsel : rxSelect s b = some i)
    (hg : guardOf i s = true) (he : exec i s = .next t) :
    runLines (rxframe (b :: rest)) s = runLines (rxframe rest) { t with launched := true } := by
  have hen : (Line.rx b).enabled s = some i := Line.enabled_eq_some.mpr ⟨hsel, hg⟩
  exact runLines_cons hen (runLine_of_exec hen (decode_encode i) he)

/-- R131: the START byte opens the frame. -/
theorem runLines_rx_start {s : State} (rest : List Byte) (hr : s.running = true) (hx : s.rxState = .seek) :
    runLines (rxframe (s.profile.start :: rest)) s
      = runLines (rxframe rest) { s with rxCnt := 0, rxState := .accum, launched := true } := by
  have hg : rxSeekGuard s = true := by simp [rxSeekGuard, hx]
  have he : exec (.rxSeek s.profile.start) s = .next { s with rxCnt := 0, rxState := .accum } := by
    simp [exec, execRxSeek, hg, hr, delimClass_start]
  exact runLines_rx (i := .rxSeek s.profile.start) rest (by simp [rxSelect, hx]) hg he

/-- R132: a byte other than STOP is stored in the first free cell. -/
theorem runLines_rx_store {s : State} {b : Byte} (rest : List Byte) (hr : s.running = true) (hl : s.launched = true)
    (hx : s.rxState = .accum) (hb : b ≠ s.profile.stop) (hc : s.rxCnt < s.profile.maxFrameSize) :
    runLines (rxframe (b :: rest)) s
      = runLines (rxframe rest) { s with rxBuf := s.rxBuf.write s.rxCnt b, rxCnt := s.rxCnt + 1 } := by
  have hg : rxAccumGuard s b = true := by simp [rxAccumGuard, hx, hb, hc]
  have hw := memWrite_of_lt s.rxBuf b (show s.rxCnt < s.profile.rxbSize from hc)
  have he : exec (.rxAccum b) s = .next { s with rxBuf := s.rxBuf.write s.rxCnt b, rxCnt := s.rxCnt + 1 } := by
    simp [exec, execRxAccum, hg, hr, hw]
  rw [runLines_rx (i := .rxAccum b) rest (by simp [rxSelect, hx, hb, hc]) hg he, hl]

theorem memWriteList_cons_eq_ok {size i : Nat} {b : Byte} {x : List Byte} {m n : Memory} :
    memWriteList size m i (b :: x) = .ok n ↔ i < size ∧ memWriteList size (m.write i b) (i + 1) x = .ok n := by
  by_cases hi : i < size <;> simp [memWriteList, memWrite, hi]

/-- R132: bytes other than STOP that fit are stored as one list, from the first free cell on. -/
theorem runLines_rx_accum {x : List Byte} {s : State} {m : Memory} (rest : List Byte) (hr : s.running = true)
    (hl : s.launched = true) (hx : s.rxState = .accum) (hstop : s.profile.stop ∉ x)
    (hm : memWriteList s.profile.rxbSize s.rxBuf s.rxCnt x = .ok m) :
    runLines (rxframe (x ++ rest)) s = runLines (rxframe rest) { s with rxBuf := m, rxCnt := s.rxCnt + x.length } := by
  induction x generalizing s with
  | nil =>
    injection hm with hm
    subst hm
    rfl
  | cons b x ih =>
    obtain ⟨hb, hstop⟩ := List.ne_and_not_mem_of_not_mem_cons hstop
    obtain ⟨hc, hm⟩ := memWriteList_cons_eq_ok.mp hm
    have hlen : s.rxCnt + (b :: x).length = s.rxCnt + 1 + x.length := by
      rw [List.length_cons]
      omega
    rw [List.cons_append, runLines_rx_store _ hr hl hx hb.symm hc, hlen]
    exact ih hr hl hx hstop hm

/-- R134: the STOP byte after a stored body that passes the checks opens the dispatch of its payload. -/
theorem runLines_rx_stop {s : State} {x raw : List Byte} {cmd : Byte} {m : Memory} (rest : List Byte)
    (hr : s.running = true) (hl : s.launched = true) (hx : s.rxState = .accum)
    (hbody : memReadList s.profile.rxbSize s.rxBuf 0 s.rxCnt = .ok x)
    (hok : destuffAndVerify s.profile x = .ok (cmd :: raw))
    (hm : memWriteList s.profile.rxbSize s.rxBuf 0 (cmd :: raw) = .ok m) :
    runLines (rxframe (s.profile.stop :: rest)) s
      = runLines (rxframe rest)
          { s with rxBuf := m, dispCmd := cmd, dispLen := raw.length - s.profile.chkW, rxState := .dispatch } := by
  have hg : rxStopGuard s s.profile.stop = true := by simp [rxStopGuard, hx]
  obtain ⟨-, -, hmin, -⟩ := destuffAndVerify_eq_ok.mp hok
  have he : exec (.rxStop s.profile.stop) s = .next
      { s with rxBuf := m, dispCmd := cmd, dispLen := raw.length - s.profile.chkW, rxState := .dispatch } := by
    simp [exec, execRxStop, hg, hr, hbody, hok, hm, dispatch_cons s m hmin]
  rw [runLines_rx (i := .rxStop s.profile.stop) rest (by simp [rxSelect, hx]) hg he, hl]

/-! ## The whole frame -/

/-- R137: in the dispatch of a stored payload every byte of the parameter reads back through the view. -/
theorem exec_hParamRead_view {s : State} {cmd b : Byte} {param tail : List Byte} {i : Nat} {m₀ : Memory}
    (hr : s.running = true) (hx : s.rxState = .dispatch) (hlen : s.dispLen = param.length)
    (hfit : 1 + param.length ≤ s.profile.rxbSize)
    (hm : memWriteList s.profile.rxbSize m₀ 0 (bodyOf cmd param ++ tail) = .ok s.rxBuf) (hb : param[i]? = some b) :
    exec (.hParamRead i) s = .next { s with ret := some (.byte b) } := by
  obtain ⟨hi, hget⟩ := List.getElem?_eq_some_iff.mp hb
  have hcell : memRead s.profile.rxbSize s.rxBuf (1 + i) = .ok b := by
    refine memRead_eq_ok.mpr ⟨by omega, ?_⟩
    rw [memWriteList_read hm, if_pos (by simp; omega)]
    simp [Nat.add_comm 1 i, List.getElem?_append_left hi, hb]
  have hview : ¬ s.dispLen ≤ i := by omega
  simp [exec, execHParamRead, hr, hx, hview, hcell, State.returns]

/-- R131 to R134: START, the stuffed payload and STOP leave the dispatch of the payload, which is stored in RXB. -/
theorem runLines_rxframe {s : State} (cmd : Byte) (param : List Byte) (hr : s.running = true)
    (hwf : s.profile.wf = true) (hx : s.rxState = .seek)
    (hfit : (stuff s.profile (rawOf s.profile (bodyOf cmd param))).length ≤ s.profile.rxbSize) :
    ∃ m₀ m cnt,
      memWriteList s.profile.rxbSize m₀ 0 (rawOf s.profile (bodyOf cmd param)) = .ok m
        ∧ runLines
            (rxframe ([s.profile.start] ++ stuff s.profile (rawOf s.profile (bodyOf cmd param)) ++ [s.profile.stop])) s
          = ([], .next { s with
              rxBuf := m, rxCnt := cnt, dispCmd := cmd, dispLen := param.length, rxState := .dispatch,
              launched := true }) := by
  obtain ⟨-, -, -, hwidth, -⟩ := (Profile.wf_iff _).mp hwf
  have hok := destuffAndVerify_stuff hwf (body := bodyOf cmd param) (by simp)
  have hstop := stop_not_mem_stuff hwf (rawOf s.profile (bodyOf cmd param))
  have hraw := length_le_stuff s.profile (rawOf s.profile (bodyOf cmd param))
  have hview : (param ++ s.profile.checksum (bodyOf cmd param)).length - s.profile.chkW = param.length := by
    rw [List.length_append, Profile.checksum_length hwidth, Nat.add_sub_cancel]
  generalize stuff s.profile (rawOf s.profile (bodyOf cmd param)) = x at *
  obtain ⟨m₀, hm₀⟩ := memWriteList_of_fits (size := s.profile.rxbSize) x s.rxBuf (i := 0) (by omega)
  obtain ⟨m, hm⟩ := memWriteList_of_fits (size := s.profile.rxbSize) (rawOf s.profile (bodyOf cmd param)) m₀ (i := 0)
    (by omega)
  have hbody : memReadList s.profile.rxbSize m₀ 0 (0 + x.length) = .ok x := by
    rw [Nat.zero_add]
    exact memReadList_memWriteList (by omega) hm₀
  refine ⟨m₀, m, 0 + x.length, hm, ?_⟩
  rw [List.append_assoc, List.singleton_append, runLines_rx_start _ hr hx, ← hview]
  exact Eq.trans (runLines_rx_accum _ hr rfl rfl hstop hm₀) (runLines_rx_stop [] hr rfl rfl hbody hok hm)

/-- Settles O59: the frame's bytes leave the dispatch of its payload, whose parameter reads back through the view. -/
theorem receivedFrameDispatchesMessage : Obligations.ReceivedFrameDispatchesMessage := by
  intro s cmd param f hr hwf hx hf
  obtain ⟨hparam, hstuffed, rfl⟩ := frameOf_eq_ok.mp hf
  obtain ⟨m₀, m, cnt, hm, hrun⟩ := runLines_rxframe cmd param hr hwf hx hstuffed
  have hfit : 1 + param.length ≤ s.profile.rxbSize := Nat.le_of_add_right_le hparam
  exact ⟨_, hrun, rfl, rfl, rfl, fun i b hb => exec_hParamRead_view hr rfl rfl hfit hm hb, rfl, rfl, rfl, hr⟩

end Sys2Proof.Machine

/-! STUFF and DESTUFF as functions of lists (40_codec.md R105 to R107): what a stuffed body holds, how long it is, and
that DESTUFF accepts nothing else. -/

namespace Sys2Proof.Machine

/-! ## What a stuffed body holds -/

/-- R106: STUFF is STUFF_BYTE over the list. -/
theorem stuff_eq_flatMap (P : Profile) (x : List Byte) : stuff P x = x.flatMap (stuffByte P) := by
  induction x with
  | nil => rfl
  | cons b x ih => rw [stuff_cons, ih, List.flatMap_cons]

/-- The one reserved byte that a stuffed byte can give is ESC, since no escape code is reserved (R9 b). -/
theorem eq_esc_of_mem_stuffByte {P : Profile} (h : P.wf = true) {b c : Byte} (hc : c ∈ stuffByte P b) (hr : c ∈ P.rsv) :
    c = P.esc := by
  obtain ⟨-, hcode, -⟩ := (Profile.wf_iff P).mp h
  by_cases hb : b ∈ P.rsv
  · rw [stuffByte_of_mem hb, List.mem_cons, List.mem_singleton] at hc
    exact hc.resolve_right fun e => hcode b hb (e ▸ hr)
  · rw [stuffByte_of_not_mem hb, List.mem_singleton] at hc
    exact absurd (hc ▸ hr) hb

theorem eq_esc_of_mem_stuff {P : Profile} (h : P.wf = true) {x : List Byte} {c : Byte} (hc : c ∈ stuff P x)
    (hr : c ∈ P.rsv) : c = P.esc := by
  rw [stuff_eq_flatMap, List.mem_flatMap] at hc
  obtain ⟨b, -, hb⟩ := hc
  exact eq_esc_of_mem_stuffByte h hb hr

theorem start_not_mem_stuff {P : Profile} (h : P.wf = true) (x : List Byte) : P.start ∉ stuff P x := by
  obtain ⟨⟨-, hne, -⟩, -⟩ := (Profile.wf_iff P).mp h
  exact fun hc => hne (eq_esc_of_mem_stuff h hc ((P.mem_rsv _).mpr (.inl rfl)))

/-- R111: an ESC in a stuffed body is the first byte of an escape pair: an escape code is not ESC, and a byte that
stands for itself is not reserved. -/
theorem escape_code_after_esc {P : Profile} (h : P.wf = true) {x before after : List Byte}
    (hs : stuff P x = before ++ P.esc :: after) : ∃ y rest, after = y :: rest ∧ y ∈ P.eimg := by
  obtain ⟨-, hcode, -⟩ := (Profile.wf_iff P).mp h
  have hesc : P.esc ∈ P.rsv := (P.mem_rsv _).mpr (.inr (.inr rfl))
  induction x generalizing before with
  | nil => simp at hs
  | cons b x ih =>
    rw [stuff_cons] at hs
    by_cases hb : b ∈ P.rsv
    · rw [stuffByte_of_mem hb] at hs
      match before with
      | [] =>
        injection hs with _ hs
        exact ⟨_, _, hs.symm, List.mem_map_of_mem hb⟩
      | [_] =>
        injection hs with _ hs
        injection hs with he _
        exact absurd (he ▸ hesc) (hcode b hb)
      | _ :: _ :: before =>
        injection hs with _ hs
        injection hs with _ hs
        exact ih hs
    · rw [stuffByte_of_not_mem hb] at hs
      match before with
      | [] =>
        injection hs with he _
        exact absurd (he ▸ hesc) hb
      | _ :: before =>
        injection hs with _ hs
        exact ih hs

/-- Settles O1: a reserved byte of a stuffed body is ESC, and each ESC opens an escape pair. -/
theorem stuffedBodyHasNoBareDelimiter : Obligations.StuffedBodyHasNoBareDelimiter :=
  fun _ x h => ⟨fun _ hb => ⟨fun e => start_not_mem_stuff h x (e ▸ hb), fun e => stop_not_mem_stuff h x (e ▸ hb)⟩,
    fun _ _ => escape_code_after_esc h⟩

/-! ## What DESTUFF accepts -/

theorem eq_esc_of_delimClass {P : Profile} {b : Byte} (h : delimClass P b = .esc) : b = P.esc := by
  by_cases hstart : b = P.start
  · rw [delimClass, if_pos hstart] at h
    cases h
  · by_cases hstop : b = P.stop
    · rw [delimClass, if_neg hstart, if_pos hstop] at h
      cases h
    · by_cases hesc : b = P.esc
      · exact hesc
      · rw [delimClass, if_neg hstart, if_neg hstop, if_neg hesc] at h
        cases h

/-- R107: what DESTUFF accepts is the stuffed form of its answer, for every profile. -/
theorem eq_stuff_of_destuff {P : Profile} {s x : List Byte} (h : destuff P s = some x) : s = stuff P x := by
  fun_induction destuff P s generalizing x with
  | case1 =>
    injection h with h
    rw [← h, stuff_nil]
  | case5 c hc =>
    injection h with h
    rw [← h, stuff_cons, stuffByte_of_not_mem (delimClass_eq_data.mp hc), stuff_nil, List.append_nil]
  | case7 c y rest hc b hu ih =>
    obtain ⟨a, ha, rfl⟩ := Option.map_eq_some_iff.mp h
    obtain ⟨hb, hy⟩ := Profile.unesc_eq_some hu
    rw [stuff_cons, stuffByte_of_mem hb, hy, ← ih ha, eq_esc_of_delimClass hc]
    rfl
  | case10 c y rest hc ih =>
    obtain ⟨a, ha, rfl⟩ := Option.map_eq_some_iff.mp h
    rw [stuff_cons, stuffByte_of_not_mem (delimClass_eq_data.mp hc), ← ih ha, List.singleton_append]
  | case2 | case3 | case4 | case6 | case8 | case9 => cases h

/-- Settles O4: DESTUFF accepts only stuffed forms, and undoes STUFF under WF(P). -/
theorem destuffAcceptsExactlyStuffedBodies : Obligations.DestuffAcceptsExactlyStuffedBodies :=
  fun _ _ x h => ⟨eq_stuff_of_destuff, fun e => e ▸ destuff_stuff h x⟩

/-- A list that is no stuffed form is malformed. -/
theorem destuff_eq_none {P : Profile} {s : List Byte} (h : ∀ x, s ≠ stuff P x) : destuff P s = none :=
  Option.eq_none_iff_forall_ne_some.mpr fun x hx => h x (eq_stuff_of_destuff hx)

/-! ## Lengths -/

theorem length_stuffByte (P : Profile) (b : Byte) : (stuffByte P b).length = if b ∈ P.rsv then 2 else 1 := by
  by_cases hb : b ∈ P.rsv
  · rw [stuffByte_of_mem hb, if_pos hb]
    rfl
  · rw [stuffByte_of_not_mem hb, if_neg hb]
    rfl

/-- A stuffed body is longer than its list by one byte for each reserved byte. -/
theorem length_stuff (P : Profile) (x : List Byte) :
    (stuff P x).length = x.length + x.countP (fun b => decide (b ∈ P.rsv)) := by
  induction x with
  | nil => rfl
  | cons b x ih =>
    rw [stuff_cons, List.length_append, ih, length_stuffByte, List.countP_cons, List.length_cons]
    by_cases hb : b ∈ P.rsv
    · simp only [hb, if_true, decide_true]
      omega
    · simp only [hb, if_false, decide_false, Bool.false_eq_true]
      omega

theorem length_stuff_le (P : Profile) (x : List Byte) : (stuff P x).length ≤ 2 * x.length := by
  have hcount := List.countP_le_length (p := fun b => decide (b ∈ P.rsv)) (l := x)
  rw [length_stuff]
  omega

theorem length_stuff_eq_double_iff (P : Profile) (x : List Byte) :
    (stuff P x).length = 2 * x.length ↔ ∀ b ∈ x, b ∈ P.rsv := by
  rw [length_stuff, Nat.two_mul, Nat.add_left_cancel_iff, List.countP_eq_length]
  simp only [decide_eq_true_eq]

theorem length_stuff_eq_iff (P : Profile) (x : List Byte) :
    (stuff P x).length = x.length ↔ ∀ b ∈ x, b ∉ P.rsv := by
  rw [length_stuff, Nat.add_eq_left, List.countP_eq_zero]
  simp only [decide_eq_true_eq]

/-- Settles O3: a stuffed body has one more byte for each reserved byte, and what DESTUFF accepts is a stuffed body. -/
theorem stuffedLengthBounds : Obligations.StuffedLengthBounds := by
  intro P
  refine ⟨fun x => ⟨length_le_stuff P x, length_stuff_le P x, length_stuff_eq_double_iff P x, length_stuff_eq_iff P x⟩,
    fun s raw h => ⟨?_, destuff_length_le h⟩⟩
  have hle := length_stuff_le P raw
  rw [← eq_stuff_of_destuff h] at hle
  omega

end Sys2Proof.Machine

/-! The checksum and the frame functions (40_codec.md R102 to R104, R109, R110): the value of SUM8 and what it detects,
and one equation for each outcome. -/

namespace Sys2Proof.Machine

/-! ## CHK_VERIFY -/

/-- R104: CHK_VERIFY asks for MIN_FRAME bytes and a checksum field that matches. -/
theorem chkVerify_eq_decide (P : Profile) (raw : List Byte) :
    chkVerify P raw = decide (P.minFrame ≤ raw.length ∧ P.checksum (rawBody P raw) = rawChecksum P raw) := by
  by_cases h : raw.length < P.minFrame
  · simp [chkVerify, h, Nat.not_le.mpr h]
  · simp [chkVerify, h, Nat.not_lt.mp h]

/-! ## SUM8 -/

/-- R103: SUM8's byte is the sum of the bytes mod 256. -/
theorem sumBytes_eq (x : List Byte) : sumBytes x = BitVec.ofNat 8 ((x.map fun b => b.toNat).sum % 256) := by
  induction x with
  | nil => rfl
  | cons b x ih =>
    apply BitVec.eq_of_toNat_eq
    rw [sumBytes, ih, List.map_cons, List.sum_cons, BitVec.toNat_add, BitVec.toNat_ofNat, BitVec.toNat_ofNat]
    omega

/-- Writing one byte moves the sum by the difference of the two bytes. -/
theorem sumBytes_set {x : List Byte} {i : Nat} (hi : i < x.length) (v : Byte) :
    sumBytes (x.set i v) + x[i] = sumBytes x + v := by
  induction x generalizing i with
  | nil => exact absurd hi (Nat.not_lt_zero i)
  | cons b x ih =>
    cases i with
    | zero =>
      simp only [List.set_cons_zero, List.getElem_cons_zero, sumBytes]
      ac_rfl
    | succ i =>
      simp only [List.set_cons_succ, List.getElem_cons_succ, sumBytes]
      rw [BitVec.add_assoc, ih (Nat.lt_of_succ_lt_succ hi), BitVec.add_assoc]

theorem sumBytes_set_ne {x : List Byte} {i : Nat} (hi : i < x.length) {v : Byte} (hv : v ≠ x[i]) :
    sumBytes (x.set i v) ≠ sumBytes x := by
  intro he
  have hset := sumBytes_set hi v
  rw [he] at hset
  exact hv ((BitVec.add_right_inj _).mp hset).symm

/-- R104 under P0: the last byte is the sum of the bytes before it, of which there is at least one. -/
theorem chkVerify_p0_concat (body : List Byte) (c : Byte) :
    chkVerify Profile.p0 (body ++ [c]) = true ↔ 0 < body.length ∧ sumBytes body = c := by
  rw [chkVerify_eq_decide, decide_eq_true_iff]
  simp [Profile.minFrame, Profile.checksum, Profile.p0, Nat.succ_le_iff]

/-- R114: under P0 no payload that verifies still verifies with one byte changed. -/
theorem chkVerify_p0_set_ne {raw : List Byte} {i : Nat} (hi : i < raw.length) {v : Byte} (hv : v ≠ raw[i])
    (h : chkVerify Profile.p0 raw = true) : chkVerify Profile.p0 (raw.set i v) = false := by
  obtain rfl | ⟨body, c, he⟩ := List.eq_nil_or_concat raw
  · exact absurd hi (Nat.not_lt_zero i)
  · rw [List.concat_eq_append] at he
    subst he
    obtain ⟨-, hsum⟩ := (chkVerify_p0_concat body c).mp h
    rw [Bool.eq_false_iff]
    by_cases hbody : i < body.length
    · rw [List.set_append_left _ _ hbody, Ne, chkVerify_p0_concat, not_and, hsum.symm]
      rw [List.getElem_append_left hbody] at hv
      exact fun _ => sumBytes_set_ne hbody hv
    · obtain rfl : i = body.length := by
        rw [List.length_append, List.length_singleton] at hi
        omega
      rw [List.set_append_right _ _ (Nat.le_refl _), Nat.sub_self, List.set_cons_zero, Ne, chkVerify_p0_concat, not_and,
        hsum]
      rw [List.getElem_concat_length rfl] at hv
      exact fun _ => hv.symm

/-- Flipping a bit changes the byte. -/
theorem xor_twoPow_ne (b : Byte) {k : Nat} (hk : k < 8) : b ^^^ BitVec.twoPow 8 k ≠ b := by
  intro he
  have hbit := congrArg (fun a => a.getLsbD k) he
  simp [hk] at hbit

/-- Settles O6: a flipped bit is a changed byte, and SUM8 detects every change of one byte. -/
theorem sumCheckDetectsSingleBitFlip : Obligations.SumCheckDetectsSingleBitFlip :=
  fun _ _ _ hi hk h => chkVerify_p0_set_ne hi (xor_twoPow_ne _ hk) h

/-! ## The outcomes of the frame functions -/

theorem stuffAndChecksum_of_fits {P : Profile} {body : List Byte}
    (h : (stuff P (rawOf P body)).length ≤ P.maxFrameSize) :
    stuffAndChecksum P body = .ok (delimWrap P (stuff P (rawOf P body))) :=
  if_neg (Nat.not_lt.mpr h)

theorem destuffAndVerify_of_short {P : Profile} {s : List Byte} (h : s.length < P.minFrame) :
    destuffAndVerify P s = .error .badSize :=
  if_pos h

theorem destuffAndVerify_of_malformed {P : Profile} {s : List Byte} (h : P.minFrame ≤ s.length)
    (hd : destuff P s = none) : destuffAndVerify P s = .error .badChecksum := by
  simp [destuffAndVerify, Nat.not_lt.mpr h, hd]

theorem destuffAndVerify_of_short_payload {P : Profile} {s raw : List Byte} (h : P.minFrame ≤ s.length)
    (hd : destuff P s = some raw) (hraw : raw.length < P.minFrame) : destuffAndVerify P s = .error .badSize := by
  simp [destuffAndVerify, Nat.not_lt.mpr h, hd, hraw]

theorem destuffAndVerify_of_payload {P : Profile} {s raw : List Byte} (h : P.minFrame ≤ s.length)
    (hd : destuff P s = some raw) (hraw : P.minFrame ≤ raw.length) :
    destuffAndVerify P s
      = if P.checksum (rawBody P raw) = rawChecksum P raw then .ok raw else .error .badChecksum := by
  simp [destuffAndVerify, Nat.not_lt.mpr h, hd, Nat.not_lt.mpr hraw, chkVerify_eq_decide, hraw]

/-- Settles O2: the frame's body is the stuffed payload, which verifies to the payload. -/
theorem destuffInvertsStuff : Obligations.DestuffInvertsStuff :=
  fun _ h => ⟨destuff_stuff h, fun _ _ hfit =>
    ⟨_, stuffAndChecksum_of_fits hfit, destuffAndVerify_stuff h (List.cons_ne_nil _ _)⟩⟩

/-- Settles O5: DESTUFF accepts only stuffed bodies, and a stuffed body holds no delimiter. -/
theorem delimiterInsideBodyIsRejected : Obligations.DelimiterInsideBodyIsRejected := by
  intro P s hwf hdelim
  have hmal : destuff P s = none := destuff_eq_none <| by
    rintro x rfl
    exact hdelim.elim (start_not_mem_stuff hwf x) (stop_not_mem_stuff hwf x)
  exact ⟨hmal, fun hmin => destuffAndVerify_of_malformed hmin hmal⟩

end Sys2Proof.Machine

/-! What the standalone codec operations return (30_encoding.md R81, group 1). -/

namespace Sys2Proof.Machine

/-- An operation that only returns a value completes in an unmarked state and leaves every other element. -/
theorem whenRunning_returns {s : State} {v w : Result} (hr : s.running = true) (h : v = w) :
    whenRunning s (.next (s.returns v)) = .next { s with ret := some w } := by
  rw [whenRunning_of_running _ hr, h]
  rfl

/-- Settles O8: each operation returns its function's value, which is the value of its rule. -/
theorem codecOperationsReturn : Obligations.CodecOperationsReturn := by
  intro s hr
  refine ⟨fun _ => whenRunning_returns hr rfl, fun _ => whenRunning_returns hr rfl, fun body hsum => ?_,
    fun body hwf => ?_, fun raw => whenRunning_returns hr (congrArg _ (chkVerify_eq_decide _ raw)),
    fun b => whenRunning_returns hr (congrArg _ (stuffByte_eq _ b)),
    fun x => whenRunning_returns hr (congrArg _ (stuff_eq_flatMap _ x)), fun _ => whenRunning_returns hr rfl⟩
  · have hchk : chkGen s.profile body = [sumBytes body] := by rw [chkGen, Profile.checksum, hsum]
    exact whenRunning_returns hr (congrArg _ (by rw [hchk, sumBytes_eq]))
  · obtain ⟨-, -, -, hwidth, -⟩ := (Profile.wf_iff _).mp hwf
    exact ⟨_, Profile.checksum_length hwidth body, whenRunning_returns hr rfl⟩

theorem exec_destuff_of_eq_some {s : State} {x raw : List Byte} (hr : s.running = true)
    (h : destuff s.profile x = some raw) : exec (.destuff x) s = .next { s with ret := some (.bytes raw) } :=
  whenRunning_returns hr (by rw [h])

theorem exec_destuff_of_eq_none {s : State} {x : List Byte} (hr : s.running = true) (h : destuff s.profile x = none) :
    exec (.destuff x) s = .next { s with ret := some .malformed } :=
  whenRunning_returns hr (by rw [h])

/-- Settles O9: DESTUFF undoes STUFF, and accepts only stuffed forms. -/
theorem destuffOperationReturns : Obligations.DestuffOperationReturns :=
  fun _ hr hwf => ⟨fun x => exec_destuff_of_eq_some hr (destuff_stuff hwf x),
    fun _ hy => exec_destuff_of_eq_none hr (destuff_eq_none hy)⟩

/-- Settles O10: each clause is one outcome of the frame function. -/
theorem frameOperationsReturn : Obligations.FrameOperationsReturn := by
  intro s hr
  refine ⟨fun body => whenRunning_returns hr ?_,
    fun x hx => whenRunning_returns hr (congrArg resultOf (destuffAndVerify_of_short hx)),
    fun x hx hd => whenRunning_returns hr (congrArg resultOf (destuffAndVerify_of_malformed hx hd)),
    fun x raw hx hd hraw => whenRunning_returns hr (congrArg resultOf (destuffAndVerify_of_short_payload hx hd hraw)),
    fun x raw hx hd hraw => whenRunning_returns hr ?_⟩
  · exact apply_ite resultOf _ _ _
  · rw [destuffAndVerify_of_payload hx hd hraw]
    exact apply_ite resultOf _ _ _

end Sys2Proof.Machine

/-! The message codec (41_message.md R121 to R125): the outcomes of its functions, what its operations return, the round
trip through the wire frame, and the capacity boundary up to TX_BUILD (43_transmit.md R153). -/

namespace Sys2Proof.Machine

/-! ## The outcomes of the message functions -/

theorem encodeMessage_of_fits {P : Profile} {param : List Byte} (cmd : Byte)
    (h : 1 + param.length + P.chkW ≤ P.maxFrameSize) : encodeMessage P cmd param = .ok (bodyOf cmd param) :=
  if_neg (Nat.not_lt.mpr h)

theorem encodeMessage_of_too_long {P : Profile} {param : List Byte} (cmd : Byte)
    (h : P.maxFrameSize < 1 + param.length + P.chkW) : encodeMessage P cmd param = .error .commandTooLong :=
  if_pos h

theorem decodeParameter_of_long {P : Profile} {n : Nat} (h : P.minFrame ≤ n) :
    decodeParameter P n = .ok (1, n - 1 - P.chkW) :=
  if_neg (Nat.not_lt.mpr h)

theorem decodeParameter_of_short {P : Profile} {n : Nat} (h : n < P.minFrame) :
    decodeParameter P n = .error .incorrectParamSize :=
  if_pos h

/-! ## The standalone operations -/

theorem exec_decodeCmd_nil {s : State} (hr : s.running = true) :
    exec (.decodeCmd []) s = .next { s with fault := some .unwrittenRead } := by
  obtain ⟨hf, -⟩ := (State.running_iff s).mp hr
  have hfail : s.fail .unwrittenRead = { s with fault := some .unwrittenRead } := by
    rw [State.fail, hf, Option.none_or]
  exact (whenRunning_of_running _ hr).trans (congrArg _ hfail)

theorem exec_decodeParam {s : State} (raw : List Byte) (n : Nat) (hr : s.running = true) :
    exec (.decodeParam raw n) s = .next { s with ret := some (if n < 1 + s.profile.chkW
      then .error .incorrectParamSize else .view 1 (n - 1 - s.profile.chkW)) } := by
  refine whenRunning_returns hr ?_
  by_cases h : n < 1 + s.profile.chkW
  · rw [decodeParameter_of_short h, if_pos h]
  · rw [decodeParameter_of_long (Nat.not_lt.mp h), if_neg h]

/-- Settles O11: ENCODE and DECODE_PARAM have two outcomes each, and DECODE_CMD faults on the empty list alone. -/
theorem messageOperationsReturn : Obligations.MessageOperationsReturn :=
  fun _ hr => ⟨fun _ _ => whenRunning_returns hr (apply_ite resultOf _ _ _), fun _ _ => whenRunning_returns hr rfl,
    exec_decodeCmd_nil hr, fun raw n => exec_decodeParam raw n hr⟩

/-! ## The round trip -/

/-- The receiver's body: what stands between START and STOP. -/
theorem delimWrap_inner (P : Profile) (x : List Byte) :
    ((delimWrap P x).take ((delimWrap P x).length - 1)).drop 1 = x := by
  simp

/-- R123: the view of a message's payload skips the command id and the checksum. -/
theorem decodeParameter_rawOf {P : Profile} (h : P.chkWidthOk = true) (cmd : Byte) (param : List Byte) :
    decodeParameter P (rawOf P (bodyOf cmd param)).length = .ok (1, param.length) := by
  have hlen : (rawOf P (bodyOf cmd param)).length = 1 + P.chkW + param.length := by
    rw [List.length_append, Profile.checksum_length h, List.length_cons]
    omega
  have hmin : P.minFrame ≤ 1 + P.chkW + param.length := Nat.le_add_right ..
  rw [hlen, decodeParameter_of_long hmin, Nat.sub_sub, Nat.add_sub_cancel_left]

theorem viewOf_rawOf (P : Profile) (cmd : Byte) (param : List Byte) :
    viewOf (rawOf P (bodyOf cmd param)) 1 param.length = param :=
  List.take_left

/-- Settles O12: the frame's body verifies to the payload, whose first byte is the command id and whose view is the
parameter. -/
theorem messageRoundTrip : Obligations.MessageRoundTrip := by
  intro P cmd param body f hwf hbody hf
  obtain ⟨-, -, -, hwidth, -⟩ := (Profile.wf_iff P).mp hwf
  have hframe : frameOf P cmd param = .ok f := by rw [frameOf, hbody, ← hf]
  obtain ⟨-, -, rfl⟩ := frameOf_eq_ok.mp hframe
  rw [delimWrap_inner]
  exact ⟨_, destuffAndVerify_stuff hwf (List.cons_ne_nil cmd param), rfl,
    _, _, decodeParameter_rawOf hwidth cmd param, viewOf_rawOf P cmd param⟩

/-! ## The capacity boundary -/

theorem stuffAndChecksum_of_too_long {P : Profile} {body : List Byte}
    (h : P.maxFrameSize < (stuff P (rawOf P body)).length) : stuffAndChecksum P body = .error .stuffedFrameTooLong :=
  if_pos h

theorem exists_stuffAndChecksum_eq_ok {P : Profile} {body : List Byte} :
    (∃ f, stuffAndChecksum P body = .ok f) ↔ (stuff P (rawOf P body)).length ≤ P.maxFrameSize := by
  refine ⟨fun ⟨f, hf⟩ => Nat.not_lt.mp fun hlong => ?_, fun h => ⟨_, stuffAndChecksum_of_fits h⟩⟩
  rw [stuffAndChecksum_of_too_long hlong] at hf
  cases hf

/-- A stuffed list fits its own length exactly when no byte of it is reserved. -/
theorem length_stuff_le_self_iff (P : Profile) (x : List Byte) :
    (stuff P x).length ≤ x.length ↔ ∀ b ∈ x, b ∉ P.rsv := by
  rw [← length_stuff_eq_iff]
  exact ⟨fun h => Nat.le_antisymm h (length_le_stuff P x), Nat.le_of_eq⟩

/-- R8 under WF(P): MAX_PARAM leaves room for the command id and the checksum. -/
theorem Profile.maxParam_add {P : Profile} (h : P.wf = true) : 1 + P.maxParam + P.chkW = P.maxFrameSize := by
  obtain ⟨-, -, -, -, -, hmin, -⟩ := (Profile.wf_iff P).mp h
  unfold Profile.minFrame at hmin
  unfold Profile.maxParam
  omega

/-- R153: in BUILD the lock holder's request is built. -/
theorem exec_txBuild_of_owned {s : State} {r : Requester} (hr : s.running = true) (hp : s.txPhase = .build)
    (hl : s.lock = .owned r) : exec .txBuild s = .next (buildFor s r) := by
  have hh : s.holder = some r := State.holder_eq_some.mpr hl
  have hg : txBuildGuard s = true := by simp [txBuildGuard, hp, hh]
  rw [exec, execTxBuild, hg, whenEnabled_true _ hr, hh]

/-- R153: a request enters EMIT exactly when its frame can be built. -/
theorem buildFor_emit_iff (s : State) (r : Requester) :
    (buildFor s r).txPhase = .emit ↔ ∃ f, frameOf s.profile (s.slot r).req.cmd (s.slot r).req.param = .ok f := by
  obtain ⟨e, he, hb⟩ | ⟨f, m, hf, -, hb⟩ := buildFor_cases s r
  · simp [hb, he]
  · simp [hb, hf]

/-- R125: the frame can be built exactly when the parameter and the stuffed payload fit. -/
theorem exists_frameOf_eq_ok {P : Profile} {cmd : Byte} {param : List Byte} (h : P.wf = true) :
    (∃ f, frameOf P cmd param = .ok f) ↔
      param.length ≤ P.maxParam ∧ (stuff P (rawOf P (bodyOf cmd param))).length ≤ P.maxFrameSize := by
  have hcap := Profile.maxParam_add h
  have hfits : 1 + param.length + P.chkW ≤ P.maxFrameSize ↔ param.length ≤ P.maxParam := by omega
  simp only [frameOf_eq_ok, hfits, exists_and_left, exists_eq, and_true]

/-- R125: at MAX_PARAM the payload fills the frame, so its stuffed form fits exactly when no byte is reserved. -/
theorem length_stuff_le_iff_of_maxParam {P : Profile} {param : List Byte} (cmd : Byte) (h : P.wf = true)
    (hlen : param.length = P.maxParam) :
    (stuff P (rawOf P (bodyOf cmd param))).length ≤ P.maxFrameSize
      ↔ ∀ b ∈ rawOf P (bodyOf cmd param), b ∉ P.rsv := by
  obtain ⟨-, -, -, hwidth, -⟩ := (Profile.wf_iff P).mp h
  have hraw : (rawOf P (bodyOf cmd param)).length = P.maxFrameSize := by
    rw [List.length_append, Profile.checksum_length hwidth, List.length_cons, ← Profile.maxParam_add h, hlen]
    omega
  rw [← hraw]
  exact length_stuff_le_self_iff P _

/-- Settles O13: one byte past MAX_PARAM fails in ENCODE, at MAX_PARAM a reserved byte fails in STUFF_AND_CHECKSUM, and
TX_BUILD enters EMIT exactly when both succeed. -/
theorem capacityBoundary : Obligations.CapacityBoundary := by
  intro P cmd param hwf
  have hcap := Profile.maxParam_add hwf
  refine ⟨fun hlen => encodeMessage_of_too_long cmd (by omega), fun hlen => ?_, fun s r hr hs hp hl hreq => ?_⟩
  · have hiff := length_stuff_le_iff_of_maxParam cmd hwf hlen
    exact ⟨encodeMessage_of_fits cmd (by omega), exists_stuffAndChecksum_eq_ok.trans hiff,
      fun hres => stuffAndChecksum_of_too_long (Nat.not_le.mp (mt hiff.mp hres))⟩
  · rw [exec_txBuild_of_owned hr hp hl, ← exists_frameOf_eq_ok hwf]
    have hemit := buildFor_emit_iff s r
    rw [hs, hreq] at hemit
    simpa using hemit

end Sys2Proof.Machine

/-! The receive engine and the handler (42_receive.md R131 to R139): what each operation answers in each
of its cases. -/

namespace Sys2Proof.Machine

theorem whenEnabled_of_guard {g : Bool} {s : State} (k : Out) (hr : s.running = true) (hg : g = true) :
    whenEnabled g s k = k := by
  rw [hg]
  exact whenEnabled_true k hr

/-- R184: in an unmarked state a model fault sets the fault mark. -/
theorem State.fail_of_running {s : State} (f : Fault) (hr : s.running = true) :
    s.fail f = { s with fault := some f } := by
  obtain ⟨hf, -⟩ := (State.running_iff s).mp hr
  rw [State.fail, hf, Option.none_or]

/-! ## SEEK and ACCUM -/

theorem exec_rxSeek_start {s : State} (hr : s.running = true) (hx : s.rxState = .seek) :
    exec (.rxSeek s.profile.start) s = .next { s with rxCnt := 0, rxState := .accum } := by
  refine (whenEnabled_of_guard (g := rxSeekGuard s) _ hr (decide_eq_true hx)).trans ?_
  rw [if_pos (delimClass_start _)]

theorem exec_rxSeek_noise {s : State} {b : Byte} (hr : s.running = true) (hx : s.rxState = .seek)
    (hb : b ≠ s.profile.start) : exec (.rxSeek b) s = .next s := by
  refine (whenEnabled_of_guard (g := rxSeekGuard s) _ hr (decide_eq_true hx)).trans ?_
  rw [if_neg (mt delimClass_eq_start.mp hb)]

/-- Settles O19: the byte's class decides. -/
theorem seekEntersAccumOnStart : Obligations.SeekEntersAccumOnStart :=
  fun _ _ hr hx => ⟨fun hb => hb ▸ exec_rxSeek_start hr hx, exec_rxSeek_noise hr hx⟩

theorem exec_rxAccum_of_room {s : State} {b : Byte} (hr : s.running = true) (hx : s.rxState = .accum)
    (hb : b ≠ s.profile.stop) (hc : s.rxCnt < s.profile.maxFrameSize) :
    exec (.rxAccum b) s = .next { s with rxBuf := s.rxBuf.write s.rxCnt b, rxCnt := s.rxCnt + 1 } := by
  have hw := memWrite_of_lt (size := s.profile.rxbSize) s.rxBuf b hc
  refine (whenEnabled_of_guard _ hr (guardOf_rxAccum.mpr ⟨hx, hb, hc⟩)).trans ?_
  rw [hw]

/-- Settles O20: the cell rx_cnt is written, which reads back and leaves every other cell. -/
theorem accumStoresByte : Obligations.AccumStoresByte :=
  fun _ _ hr hx hb hc => ⟨_, exec_rxAccum_of_room hr hx hb hc, rfl, Memory.read_write_same ..,
    fun _ ha => Memory.read_write_other _ _ ha⟩

/-- Settles O21: with a full buffer the byte is RX_OVERFLOW's, which drops with FrameTooLong. -/
theorem overflowDropsFrame : Obligations.OverflowDropsFrame :=
  fun _ _ hr hx hb hc => whenEnabled_of_guard _ hr (guardOf_rxOverflow.mpr ⟨hx, hb, hc⟩)

/-! ## RX_STOP -/

/-- R182: a received body that fails its checks is dropped with the error. -/
theorem exec_rxStop_of_rejected {s : State} {x : List Byte} {e : ProtoError} (hr : s.running = true)
    (hx : s.rxState = .accum) (hbody : memReadList s.profile.rxbSize s.rxBuf 0 s.rxCnt = .ok x)
    (hv : destuffAndVerify s.profile x = .error e) : exec (.rxStop s.profile.stop) s = .next (s.drop e) := by
  refine (whenEnabled_of_guard _ hr (guardOf_rxStop.mpr ⟨hx, rfl⟩)).trans ?_
  simp only [hbody, hv]

/-- R134: a received body that passes its checks is replaced by its payload, and the handler is called. -/
theorem exec_rxStop_of_accepted {s : State} {x rest : List Byte} {cmd : Byte} {m : Memory} (hr : s.running = true)
    (hx : s.rxState = .accum) (hbody : memReadList s.profile.rxbSize s.rxBuf 0 s.rxCnt = .ok x)
    (hv : destuffAndVerify s.profile x = .ok (cmd :: rest))
    (hm : memWriteList s.profile.rxbSize s.rxBuf 0 (cmd :: rest) = .ok m) :
    exec (.rxStop s.profile.stop) s
      = .next { s with rxBuf := m, dispCmd := cmd, dispLen := (cmd :: rest).length - 1 - s.profile.chkW,
                       rxState := .dispatch } := by
  obtain ⟨-, -, hmin, -⟩ := destuffAndVerify_eq_ok.mp hv
  refine (whenEnabled_of_guard _ hr (guardOf_rxStop.mpr ⟨hx, rfl⟩)).trans ?_
  simp only [hbody, hv, hm, dispatch_cons s m hmin]

/-- The first cells hold a list: reading them gives it. -/
theorem memReadList_of_cells {size n : Nat} {m : Memory} {x : List Byte} (hn : n ≤ size) (hlen : x.length = n)
    (hcells : ∀ i, i < x.length → m.read i = x[i]?) : memReadList size m 0 n = .ok x := by
  refine memReadList_eq_ok.mpr ⟨hlen, fun k hk => ⟨by omega, ?_⟩⟩
  rw [Nat.zero_add, hcells k (by omega)]

/-- A list written from cell 0 on: its bytes stand in the first cells, and the cells beyond are as before. -/
theorem read_of_memWriteList_zero {size : Nat} {m n : Memory} {x : List Byte} (h : memWriteList size m 0 x = .ok n) :
    (∀ i, i < x.length → n.read i = x[i]?) ∧ ∀ i, x.length ≤ i → n.read i = m.read i := by
  refine ⟨fun i hi => ?_, fun i hi => ?_⟩
  · rw [memWriteList_read h, if_pos (by omega), Nat.sub_zero]
  · rw [memWriteList_read h, if_neg (by omega)]

/-- Settles O22: the outcome of DESTUFF_AND_VERIFY on the received body decides, and its checks stand in R185's
order. -/
theorem stopValidatesInOrder : Obligations.StopValidatesInOrder := by
  intro s x hr hx hcnt hlen hcells
  have hbody : memReadList s.profile.rxbSize s.rxBuf 0 s.rxCnt = .ok x := memReadList_of_cells hcnt hlen hcells
  have rejected {e : ProtoError} (hv : destuffAndVerify s.profile x = .error e) :=
    exec_rxStop_of_rejected hr hx hbody hv
  refine ⟨fun hshort => rejected (destuffAndVerify_of_short hshort),
    fun hmin hmal => rejected (destuffAndVerify_of_malformed hmin hmal),
    fun raw hmin hraw hshort => rejected (destuffAndVerify_of_short_payload hmin hraw hshort),
    fun raw hmin hraw hlong hchk => rejected (e := .badChecksum) ?_, fun cmd rest hraw hlong hchk => ?_⟩
  · rw [destuffAndVerify_of_payload hmin hraw hlong, if_neg hchk]
  · have hle : (cmd :: rest).length ≤ x.length := destuff_length_le hraw
    have hv : destuffAndVerify s.profile x = .ok (cmd :: rest) := by
      rw [destuffAndVerify_of_payload (Nat.le_trans hlong hle) hraw hlong, if_pos hchk]
    have hfit : 0 + (cmd :: rest).length ≤ s.profile.rxbSize := by
      rw [Profile.rxbSize]
      omega
    obtain ⟨m, hm⟩ := memWriteList_of_fits (cmd :: rest) s.rxBuf hfit
    exact ⟨_, exec_rxStop_of_accepted hr hx hbody hv hm, rfl, read_of_memWriteList_zero hm⟩

/-! ## The frames of the byte operations -/

theorem execRxSeek_frame {s t : State} {b : Byte} (h : execRxSeek b s = .next t) :
    t = { s with rxCnt := t.rxCnt, rxState := t.rxState } := by
  obtain ⟨-, ⟨-, -, rfl⟩ | rfl⟩ := execRxSeek_cases h <;> rfl

theorem execRxAccum_frame {s t : State} {b : Byte} (h : execRxAccum b s = .next t) :
    t = { s with rxBuf := t.rxBuf, rxCnt := t.rxCnt } ∧ ∀ a, a ≠ s.rxCnt → t.rxBuf.read a = s.rxBuf.read a := by
  obtain ⟨-, ⟨-, -, -, rfl⟩ | rfl⟩ := execRxAccum_cases h
  · exact ⟨rfl, fun a ha => Memory.read_write_other _ _ ha⟩
  · exact ⟨rfl, fun _ _ => rfl⟩

theorem execRxOverflow_frame {s t : State} {b : Byte} (h : execRxOverflow b s = .next t) :
    t = { s with errCnt := t.errCnt, diagHist := t.diagHist, rxState := t.rxState } := by
  obtain ⟨-, ⟨-, -, -, rfl⟩ | rfl⟩ := execRxOverflow_cases h <;> rfl

theorem execRxStop_frame {s t : State} {b : Byte} (h : execRxStop b s = .next t) :
    t = { s with rxBuf := t.rxBuf, dispCmd := t.dispCmd, dispLen := t.dispLen, rxState := t.rxState,
                 errCnt := t.errCnt, diagHist := t.diagHist, fault := t.fault } := by
  obtain ⟨-, rfl | ⟨-, -, ⟨f, -, rfl⟩ | ⟨x, -, ⟨e, -, -, rfl⟩ | ⟨cmd, rest, m, -, -, -, -, -, rfl⟩⟩⟩⟩ :=
    execRxStop_cases h <;> rfl

/-- R134: RX_STOP writes RXB only where it dispatches, and there only the cells of the payload. -/
theorem execRxStop_rxBuf {s t : State} {b : Byte} (h : execRxStop b s = .next t) :
    t.rxBuf = s.rxBuf
      ∨ t.rxState = .dispatch ∧ ∃ x raw, memReadList s.profile.rxbSize s.rxBuf 0 s.rxCnt = .ok x
          ∧ destuffAndVerify s.profile x = .ok raw ∧ memWriteList s.profile.rxbSize s.rxBuf 0 raw = .ok t.rxBuf := by
  obtain ⟨-, rfl | ⟨-, -, ⟨f, -, rfl⟩ | ⟨x, hx, ⟨e, -, -, rfl⟩ | ⟨cmd, rest, m, hv, -, -, -, hm, rfl⟩⟩⟩⟩ :=
    execRxStop_cases h
  · exact .inl rfl
  · exact .inl rfl
  · exact .inl rfl
  · exact .inr ⟨rfl, x, cmd :: rest, hx, hv, hm⟩

theorem execRxStop_keeps_cells_beyond {s t : State} {b : Byte} {x raw : List Byte} {a : Nat}
    (h : execRxStop b s = .next t) (hx : memReadList s.profile.rxbSize s.rxBuf 0 s.rxCnt = .ok x)
    (hv : destuffAndVerify s.profile x = .ok raw) (ha : raw.length ≤ a) : t.rxBuf.read a = s.rxBuf.read a := by
  obtain he | ⟨-, y, raw', hy, hw, hm⟩ := execRxStop_rxBuf h
  · rw [he]
  · obtain rfl : x = y := Except.ok.inj (hx.symm.trans hy)
    obtain rfl : raw = raw' := Except.ok.inj (hv.symm.trans hw)
    exact (read_of_memWriteList_zero hm).2 a ha

/-- Settles O33: RX_SEEK and RX_OVERFLOW leave RXB as it is; RX_ACCUM and RX_STOP store where their rules say. -/
theorem byteOperationsFrame : Obligations.ByteOperationsFrame := by
  intro s t b
  refine ⟨fun h => ?_, execRxAccum_frame, fun h => ?_, fun h => ⟨execRxStop_frame h, ?_, fun hne a => ?_⟩⟩
  · have hframe := execRxSeek_frame h
    exact ⟨hframe, fun a => by rw [hframe]⟩
  · have hframe := execRxOverflow_frame h
    exact ⟨hframe, fun a => by rw [hframe]⟩
  · exact fun x raw hx hv a ha => execRxStop_keeps_cells_beyond h hx hv ha
  · obtain he | ⟨hd, -⟩ := execRxStop_rxBuf h
    · rw [he]
    · exact absurd hd hne

/-! ## The handler's call and the reply -/

/-- R137: a read inside the view during the call. -/
theorem exec_hParamRead_of_inside {s : State} {i : Nat} {b : Byte} (hr : s.running = true) (hx : s.rxState = .dispatch)
    (hi : i < s.dispLen) (hsize : 1 + i < s.profile.maxFrameSize) (hb : s.rxBuf.read (1 + i) = some b) :
    exec (.hParamRead i) s = .next { s with ret := some (.byte b) } := by
  have hcell : memRead s.profile.rxbSize s.rxBuf (1 + i) = .ok b := memRead_eq_ok.mpr ⟨hsize, hb⟩
  refine (whenRunning_of_running _ hr).trans ?_
  rw [if_neg (Decidable.not_not.mpr hx), if_neg (Nat.not_le.mpr hi), hcell]
  rfl

theorem exec_hParamRead_of_expired {s : State} {i : Nat} (hr : s.running = true) (hx : s.rxState ≠ .dispatch) :
    exec (.hParamRead i) s = .next { s with fault := some .paramViewExpired } := by
  refine (whenRunning_of_running _ hr).trans ?_
  rw [if_pos hx, State.fail_of_running _ hr]

theorem exec_hParamRead_of_past {s : State} {i : Nat} (hr : s.running = true) (hx : s.rxState = .dispatch)
    (hi : s.dispLen ≤ i) : exec (.hParamRead i) s = .next { s with fault := some .paramViewOutOfRange } := by
  refine (whenRunning_of_running _ hr).trans ?_
  rw [if_neg (Decidable.not_not.mpr hx), if_pos hi, State.fail_of_running _ hr]

/-- Settles O23: the stage is checked before the index, and the index before the cell. -/
theorem paramReadReturnsViewByte : Obligations.ParamReadReturnsViewByte :=
  fun _ _ hr => ⟨fun _ hx hi hsize hb => exec_hParamRead_of_inside hr hx hi hsize hb, exec_hParamRead_of_expired hr,
    exec_hParamRead_of_past hr⟩

/-- R138: outside the call a return faults. -/
theorem exec_hReturn_of_no_call {s : State} (v : Int) (hr : s.running = true) (hx : s.rxState ≠ .dispatch) :
    exec (.hReturn v) s = .next { s with fault := some .returnWithoutCall } := by
  refine (whenRunning_of_running _ hr).trans ?_
  rw [if_pos hx, State.fail_of_running _ hr]

/-- R138, Error Mapping of a return during the call: three ranges of statuses. -/
theorem exec_hReturn_of_call {s : State} (v : Int) (hr : s.running = true) (hx : s.rxState = .dispatch) :
    exec (.hReturn v) s
      = .next (if v = -5 then queueReply s
          else if v = -1 ∨ v = -2 ∨ v = -3 ∨ v = -4 then { s with diagHist := s.diagHist ++ [v], rxState := .seek }
          else { s with rxState := .seek }) :=
  (whenRunning_of_running _ hr).trans (congrArg _ (if_neg (Decidable.not_not.mpr hx)))

/-- Settles O24: the ranges of Error Mapping are disjoint, so each clause's premise selects its own. -/
theorem handlerReturnMapsStatus : Obligations.HandlerReturnMapsStatus := by
  intro s v hr
  refine ⟨fun hx => ?_, exec_hReturn_of_no_call v hr⟩
  rw [exec_hReturn_of_call v hr hx]
  refine ⟨fun hv => ?_, fun hv => ?_, fun hv => ?_⟩
  · rw [if_neg (by omega), if_pos hv]
  · rw [if_pos hv]
    exact ⟨_, rfl, rfl, rfl, rfl, rfl⟩
  · rw [if_neg (by omega), if_neg (by omega)]

/-- R139: the end of the reply, with RXE's response set. -/
theorem exec_rxReplyEnd_of_resp {s : State} {v : Int} (hr : s.running = true) (hx : s.rxState = .reply)
    (hv : s.rxe.resp = some v) :
    exec .rxReplyEnd s
      = .next { s with
          diagHist := if v < 0 then s.diagHist ++ [v] else s.diagHist
          rxe := { s.rxe with resp := none }
          rxState := .seek } := by
  have hg : rxReplyEndGuard s = true := by simp [rxReplyEndGuard, hx, hv]
  refine (whenEnabled_of_guard _ hr hg).trans ?_
  rw [hv]

/-- Settles O25: RXE's slot loses its response alone. -/
theorem replyEndReturnsToSeek : Obligations.ReplyEndReturnsToSeek :=
  fun _ _ hr hx hv => ⟨_, exec_rxReplyEnd_of_resp hr hx hv, rfl, rfl⟩

theorem execHReturn_frame {s t : State} {v : Int} (h : execHReturn v s = .next t) :
    t = { s with rxState := t.rxState, diagHist := t.diagHist, errCnt := t.errCnt, rejCmd := t.rejCmd, rxe := t.rxe,
                 fault := t.fault } := by
  obtain ⟨-, ⟨-, rfl⟩ | ⟨-, -, rfl⟩ | ⟨-, -, -, rfl⟩ | ⟨-, -, rfl⟩⟩ := execHReturn_cases h <;> rfl

theorem execRxReplyEnd_frame {s t : State} (h : execRxReplyEnd s = .next t) :
    t = { s with rxState := t.rxState, diagHist := t.diagHist, rxe := t.rxe } := by
  obtain ⟨-, ⟨-, v, -, rfl⟩ | rfl⟩ := execRxReplyEnd_cases h <;> rfl

/-- Settles O34: neither operation writes a buffer. -/
theorem returnAndReplyFrame : Obligations.ReturnAndReplyFrame := by
  refine fun s t v => ⟨fun h => ?_, fun h => ?_⟩
  · have hframe := execHReturn_frame h
    exact ⟨hframe, fun a => by rw [hframe]; exact ⟨rfl, rfl⟩⟩
  · have hframe := execRxReplyEnd_frame h
    exact ⟨hframe, fun a => by rw [hframe]; exact ⟨rfl, rfl⟩⟩

end Sys2Proof.Machine

/-! Runs of the receive engine without a frame (42_receive.md R141), and of the transmit engine from the grant to the
completion (43_transmit.md R152 to R157). -/

namespace Sys2Proof.Machine

/-! ## Noise in SEEK -/

theorem run_succ_of_step {s t : State} (n : Nat) (h : step s = .next t) :
    Host.Core.run Sys2Proof.core (n + 1) s = Host.Core.run Sys2Proof.core n t := by
  have hstep : Sys2Proof.core.step s = .next t := h
  simp only [Host.Core.run, hstep]

/-- R131: a step that takes a byte other than START in SEEK changes nothing of the block. -/
theorem step_of_noise {s : State} {b : Byte} {rest : List OpWord} (hr : s.running = true) (hx : s.rxState = .seek)
    (hb : b ≠ s.profile.start) (hs : s.script = encode (.rxSeek b) :: rest) :
    step s = .next { s with script := rest, launched := true } := by
  have he : exec (.rxSeek b) { s with script := rest } = .next { s with script := rest } := exec_rxSeek_noise hr hx hb
  rw [step_of_enabled hs (decode_encode _) (guardOf_rxSeek.mpr hx), he, retire_next]

/-- Settles O58, by induction on the bytes: after the first of them the rest are the same run, from a launched block. -/
theorem noiseIsDiscarded : Obligations.NoiseIsDiscarded := by
  intro s noise rest hr hx hnoise hne hs
  induction noise generalizing s with
  | nil => exact absurd rfl hne
  | cons b noise ih =>
    obtain ⟨hb, htail⟩ := List.forall_mem_cons.mp hnoise
    rw [List.length_cons, run_succ_of_step _ (step_of_noise hr hx hb hs)]
    cases noise with
    | nil => rfl
    | cons c noise => exact ih _ hr hx htail (List.cons_ne_nil _ _) rfl

/-! ## The guards and the operations of the transmit engine -/

theorem guardOf_txGrant {s : State} {r : Requester} :
    guardOf (.txGrant r) s = true ↔ s.lock = .free ∧ inReq s.profile r = true ∧ (s.slot r).pst = .waiting := by
  simp [guardOf, txGrantGuard, isWaiter]

theorem guardOf_txBuild_of_owned {s : State} {r : Requester} (hp : s.txPhase = .build) (hl : s.lock = .owned r) :
    guardOf .txBuild s = true := by
  simp [guardOf, txBuildGuard, hp, State.holder_eq_some.mpr hl]

theorem guardOf_txEmit_of_owned {s : State} {r : Requester} (hp : s.txPhase = .emit) (hl : s.lock = .owned r)
    (hi : s.txIdx < s.txLen) : guardOf .txEmit s = true := by
  simp [guardOf, txEmitGuard, hp, hi, State.holder_eq_some.mpr hl]

theorem guardOf_txComplete_of_owned {s : State} {r : Requester} (hp : s.txPhase = .emit) (hl : s.lock = .owned r)
    (hi : s.txIdx = s.txLen) : guardOf .txComplete s = true := by
  simp [guardOf, txCompleteGuard, hp, hi, State.holder_eq_some.mpr hl]

/-- R152: the grant gives the lock to a waiting requester and makes it active. -/
theorem exec_txGrant_of_waiting {s : State} {r : Requester} (hr : s.running = true)
    (hg : guardOf (.txGrant r) s = true) :
    ∃ t, exec (.txGrant r) s = .next t
      ∧ t = { s with lock := .owned r, txPhase := .build, ports := t.ports, rxe := t.rxe }
      ∧ t.slot r = { s.slot r with pst := .active } ∧ ∀ q, q ≠ r → t.slot q = s.slot q := by
  obtain ⟨-, -, hw⟩ := guardOf_txGrant.mp hg
  have hslot : s.hasSlot r := State.hasSlot_of_pst (by simp [hw])
  have hslot' : State.hasSlot { s with lock := .owned r, txPhase := .build } r := by cases r <;> exact hslot
  exact ⟨_, whenEnabled_of_guard _ hr hg, State.setSlot_eq .., State.slot_setSlot_same _ hslot',
    fun q hq => (State.slot_setSlot_other _ hq).trans (State.slot_congr rfl rfl q)⟩

/-- R153: the request of the lock holder builds to a frame, which is stored in TXB. -/
theorem exec_txBuild_of_frame {s : State} {r : Requester} {f : List Byte} (hr : s.running = true)
    (hp : s.txPhase = .build) (hl : s.lock = .owned r)
    (hf : frameOf s.profile (s.slot r).req.cmd (s.slot r).req.param = .ok f) :
    ∃ m, memWriteList s.profile.txbSize s.txBuf 0 f = .ok m
      ∧ exec .txBuild s = .next { s with txBuf := m, txLen := f.length, txIdx := 0, txPhase := .emit } := by
  rw [exec_txBuild_of_owned hr hp hl]
  obtain ⟨e, he, -⟩ | ⟨f', m, hf', hm, hb⟩ := buildFor_cases s r
  · cases hf.symm.trans he
  · obtain rfl : f = f' := Except.ok.inj (hf.symm.trans hf')
    exact ⟨m, hm, congrArg _ hb⟩

theorem exec_txEmit_of_byte {s : State} {r : Requester} {b : Byte} (hr : s.running = true) (hp : s.txPhase = .emit)
    (hl : s.lock = .owned r) (hi : s.txIdx < s.txLen) (hb : memRead s.profile.txbSize s.txBuf s.txIdx = .ok b) :
    exec .txEmit s = .next { s with outHist := s.outHist ++ [b], txIdx := s.txIdx + 1 } := by
  refine (whenEnabled_of_guard _ hr (guardOf_txEmit_of_owned hp hl hi)).trans ?_
  rw [hb]
  rfl

theorem exec_txComplete_of_end {s : State} {r : Requester} (hr : s.running = true) (hp : s.txPhase = .emit)
    (hl : s.lock = .owned r) (hi : s.txIdx = s.txLen) : exec .txComplete s = .next (s.release r (s.txLen : Int)) := by
  refine (whenEnabled_of_guard _ hr (guardOf_txComplete_of_owned hp hl hi)).trans ?_
  rw [State.holder_eq_some.mpr hl]

/-! ## The lines of `xmit` -/

/-- A line whose operation is enabled is taken, and the run goes on from the state that operation leaves, launched. -/
theorem runLines_of_exec {l : Line} {s t : State} {i : Instr} (rest : List Line) (hop : l.operation s = some i)
    (hg : guardOf i s = true) (he : exec i s = .next t) :
    runLines (l :: rest) s = runLines rest { t with launched := true } := by
  have hen : l.enabled s = some i := Line.enabled_eq_some.mpr ⟨hop, hg⟩
  exact runLines_cons hen (runLine_of_exec hen (decode_encode i) he)

/-- The same from a state in which the first step of the run is over. -/
theorem runLines_of_exec_launched {l : Line} {s t : State} {i : Instr} (rest : List Line)
    (hop : l.operation s = some i) (hg : guardOf i s = true) (he : exec i s = .next t) (hl : t.launched = true) :
    runLines (l :: rest) s = runLines rest t := by
  rw [runLines_of_exec rest hop hg he, ← hl]

theorem memReadList_succ_eq_ok {size i n : Nat} {m : Memory} {b : Byte} {x : List Byte} :
    memReadList size m i (n + 1) = .ok (b :: x)
      ↔ memRead size m i = .ok b ∧ memReadList size m (i + 1) n = .ok x := by
  rw [memReadList]
  cases memRead size m i with
  | error => simp
  | ok c => cases memReadList size m (i + 1) n <;> simp

/-- R154: as many emissions as bytes remain send those bytes, in order. -/
theorem runLines_emit {x : List Byte} {s : State} {r : Requester} (rest : List Line) (hr : s.running = true)
    (hl : s.launched = true) (hp : s.txPhase = .emit) (hlock : s.lock = .owned r) (hlen : s.txLen = s.txIdx + x.length)
    (hx : memReadList s.profile.txbSize s.txBuf s.txIdx x.length = .ok x) :
    runLines (List.replicate x.length .emit ++ rest) s
      = runLines rest { s with outHist := s.outHist ++ x, txIdx := s.txLen } := by
  induction x generalizing s with
  | nil =>
    rw [List.append_nil]
    exact congrArg (fun k => runLines rest { s with txIdx := k }) hlen.symm
  | cons b x ih =>
    obtain ⟨hb, hx⟩ := memReadList_succ_eq_ok.mp hx
    rw [List.length_cons] at hlen
    have hi : s.txIdx < s.txLen := by omega
    have hlen' : s.txLen = s.txIdx + 1 + x.length := by omega
    have he := exec_txEmit_of_byte hr hp hlock hi hb
    have hrun := ih (s := { s with outHist := s.outHist ++ [b], txIdx := s.txIdx + 1 }) hr hl hp hlock hlen' hx
    rw [List.append_assoc] at hrun
    exact (runLines_of_exec_launched _ rfl (guardOf_txEmit_of_owned hp hlock hi) he hl).trans hrun

/-- R153 to R156: from BUILD, where the lock holder's request builds to `f`, the remaining lines of `xmit` send `f` and
release the lock with its length. -/
theorem runLines_build_to_complete {s : State} {r : Requester} {f : List Byte} (hr : s.running = true)
    (hl : s.launched = true) (hp : s.txPhase = .build) (hlock : s.lock = .owned r)
    (hf : frameOf s.profile (s.slot r).req.cmd (s.slot r).req.param = .ok f) :
    ∃ m, runLines (.build :: (List.replicate f.length .emit ++ [.complete])) s
      = ([], .next ({ s with txBuf := m, txLen := f.length, txIdx := f.length, txPhase := .emit,
                             outHist := s.outHist ++ f }.release r f.length)) := by
  obtain ⟨m, hm, hbuild⟩ := exec_txBuild_of_frame hr hp hlock hf
  have hfit : 0 + f.length ≤ s.profile.txbSize := by
    rw [Nat.zero_add]
    exact frameOf_length_le hf
  have hread := memReadList_memWriteList hfit hm
  refine ⟨m, ?_⟩
  calc runLines (.build :: (List.replicate f.length .emit ++ [.complete])) s
    _ = runLines (List.replicate f.length .emit ++ [.complete])
          { s with txBuf := m, txLen := f.length, txIdx := 0, txPhase := .emit } :=
      runLines_of_exec_launched _ rfl (guardOf_txBuild_of_owned hp hlock) hbuild hl
    _ = runLines [.complete] { s with txBuf := m, txLen := f.length, txIdx := f.length, txPhase := .emit,
                                      outHist := s.outHist ++ f } :=
      runLines_emit _ hr hl rfl hlock (Nat.zero_add _).symm hread
    _ = _ := runLines_of_exec_launched _ rfl (guardOf_txComplete_of_owned rfl hlock rfl)
      (exec_txComplete_of_end hr rfl hlock rfl) ((State.release_launched ..).trans hl)

/-- Settles O60: after the grant, the remaining lines send the frame and release what the grant took. -/
theorem grantedRequestSendsWholeFrame : Obligations.GrantedRequestSendsWholeFrame := by
  intro s r f hr hl hin hw hf
  have hg : guardOf (.txGrant r) s = true := guardOf_txGrant.mpr ⟨hl, hin, hw⟩
  obtain ⟨t, hgrant, ht, hsame, hother⟩ := exec_txGrant_of_waiting hr hg
  have hrt : t.running = true := by rw [ht]; exact hr
  have hft : frameOf t.profile (t.slot r).req.cmd (t.slot r).req.param = .ok f := by rw [hsame, ht]; exact hf
  obtain ⟨m, hrest⟩ := runLines_build_to_complete (s := { t with launched := true }) hrt rfl (by rw [ht]) (by rw [ht])
    hft
  have hrun := (runLines_of_exec (l := .grant r) _ rfl hg hgrant).trans hrest
  generalize hu : ({ t with txBuf := m, txLen := f.length, txIdx := f.length, txPhase := .emit,
                            outHist := t.outHist ++ f, launched := true } : State) = u at hrun
  have hslots (q : Requester) : u.slot q = t.slot q := State.slot_congr (by rw [← hu]) (by rw [← hu]) q
  have hslot : u.hasSlot r := State.hasSlot_of_pst (by simp [hslots, hsame])
  have hdone := State.slot_release_same (f.length : Int) hslot
  have hout : u.outHist = s.outHist ++ f := by rw [← hu, ht]
  refine ⟨_, hrun, (State.release_outHist ..).trans hout, by rw [hdone], by rw [hdone], fun q hq => ?_,
    State.release_lock .., State.release_txPhase .., ?_, ?_, ?_, ?_⟩
  · rw [State.slot_release_other _ hq, hslots, hother q hq]
  · rw [State.release_rxState, ← hu, ht]
  · rw [State.release_errCnt, ← hu, ht]
  · rw [State.release_diagHist, ← hu, ht]
  · rw [State.running, State.release_fault, State.release_refused, ← hu]
    exact hrt

end Sys2Proof.Machine

/-! The transmit engine and its arbiter (43_transmit.md R151 to R157): what each operation answers in each of its cases,
and what it leaves unchanged. -/

namespace Sys2Proof.Machine

/-! ## The arbiter -/

/-- R184: in an unmarked state a refusal sets the refused mark. -/
theorem State.refuse_of_running {s : State} (r : Refusal) (hr : s.running = true) :
    s.refuse r = { s with refused := some r } := by
  obtain ⟨-, hnone⟩ := (State.running_iff s).mp hr
  rw [State.refuse, hnone, Option.none_or]

theorem exec_sendReq_of_bad_port {s : State} {p : Nat} (cmd : Byte) (param : List Byte) (hr : s.running = true)
    (hp : s.profile.numPorts ≤ p) :
    exec (.sendReq p cmd param) s = .next { s with refused := some .badPort } := by
  refine (whenRunning_of_running _ hr).trans ?_
  rw [if_pos hp, State.refuse_of_running _ hr]

theorem exec_sendReq_before_init {s : State} {p : Nat} (cmd : Byte) (param : List Byte) (hr : s.running = true)
    (hp : p < s.profile.numPorts) (hi : s.initDone = false) :
    exec (.sendReq p cmd param) s = .next { s with fault := some .sendBeforeInit } := by
  refine (whenRunning_of_running _ hr).trans ?_
  rw [if_neg (Nat.not_le.mpr hp), if_pos hi, State.fail_of_running _ hr]

/-- R151: on a port of an initialised block, whether the port is idle decides. -/
theorem exec_sendReq_of_port {s : State} {p : Nat} (cmd : Byte) (param : List Byte) (hr : s.running = true)
    (hp : p < s.profile.numPorts) (hi : s.initDone = true) :
    exec (.sendReq p cmd param) s
      = .next (if (s.slot (.ext p)).pst ≠ .idle then s.fail .portBusy
          else s.setSlot (.ext p) { pst := .waiting, req := { cmd := cmd, param := param }, resp := none }) := by
  refine (whenRunning_of_running _ hr).trans ?_
  rw [if_neg (Nat.not_le.mpr hp), if_neg (by simp [hi])]

/-- Settles O26: the port is checked before init_done, and init_done before the port's pst. -/
theorem sendRequestQueuesMessage : Obligations.SendRequestQueuesMessage := by
  intro s p cmd param hr
  refine ⟨fun hp hi hidle hports => ?_, exec_sendReq_of_bad_port cmd param hr, exec_sendReq_before_init cmd param hr,
    fun hp hi hbusy => ?_⟩
  · have hslot : s.hasSlot (.ext p) := Nat.lt_of_lt_of_eq hp hports.symm
    rw [exec_sendReq_of_port cmd param hr hp hi, if_neg (Decidable.not_not.mpr hidle)]
    exact ⟨_, rfl, rfl, State.slot_setSlot_same _ hslot, fun q hq => State.slot_setSlot_other _ hq⟩
  · rw [exec_sendReq_of_port cmd param hr hp hi, if_pos hbusy, State.fail_of_running _ hr]

/-- Settles O27: TX_GRANT's guard asks no more of the chosen requester. -/
theorem grantAcquiresLock : Obligations.GrantAcquiresLock :=
  fun _ _ hr hl hin hw => exec_txGrant_of_waiting hr (guardOf_txGrant.mpr ⟨hl, hin, hw⟩)

/-! ## The release -/

theorem State.hasSlot_of_active {s : State} {r : Requester} (h : (s.slot r).pst = .active) : s.hasSlot r :=
  State.hasSlot_of_pst (by simp [h])

/-- R157: `release` leaves what the rule says, for every requester that has a slot. -/
theorem State.released_release {s : State} {r : Requester} (v : Int) (h : s.hasSlot r) :
    Released s (s.release r v) r v :=
  ⟨State.release_eq s r v, State.slot_release_same v h, fun _ hq => State.slot_release_other v hq⟩

/-! ## TX_BUILD -/

/-- R186: ENCODE's error comes first. -/
theorem frameOf_of_param_too_long {P : Profile} {param : List Byte} (cmd : Byte)
    (h : P.maxFrameSize < 1 + param.length + P.chkW) : frameOf P cmd param = .error .commandTooLong := by
  rw [frameOf, encodeMessage_of_too_long cmd h]

theorem frameOf_of_stuffed_too_long {P : Profile} {cmd : Byte} {param : List Byte}
    (h : 1 + param.length + P.chkW ≤ P.maxFrameSize)
    (hstuffed : P.maxFrameSize < (stuff P (rawOf P (bodyOf cmd param))).length) :
    frameOf P cmd param = .error .stuffedFrameTooLong := by
  simp only [frameOf, encodeMessage_of_fits cmd h, stuffAndChecksum_of_too_long hstuffed]

/-- R153: a request whose frame cannot be built is released with the error's code. -/
theorem exec_txBuild_of_error {s : State} {r : Requester} {e : ProtoError} (hr : s.running = true)
    (hp : s.txPhase = .build) (hl : s.lock = .owned r)
    (he : frameOf s.profile (s.slot r).req.cmd (s.slot r).req.param = .error e) :
    exec .txBuild s = .next (s.release r e.code) := by
  rw [exec_txBuild_of_owned hr hp hl]
  obtain ⟨e', he', hb⟩ | ⟨f, m, hf, -, -⟩ := buildFor_cases s r
  · rw [hb, Except.error.inj (he.symm.trans he')]
  · cases he.symm.trans hf

/-- Settles O28: the three clauses are the three outcomes of building the frame of the holder's request. -/
theorem buildWritesFrame : Obligations.BuildWritesFrame := by
  intro s r cmd param hr hp hl hactive hreq
  have hslot := State.hasSlot_of_active hactive
  have released {e : ProtoError} (he : frameOf s.profile cmd param = .error e) :
      ∃ t, exec .txBuild s = .next t ∧ Released s t r e.code :=
    ⟨_, exec_txBuild_of_error hr hp hl (by rw [hreq]; exact he), State.released_release _ hslot⟩
  refine ⟨fun hlong => released (frameOf_of_param_too_long cmd hlong),
    fun hfit hlong => released (frameOf_of_stuffed_too_long hfit hlong), fun hfit hstuffed => ?_⟩
  have hf := frameOf_eq_ok.mpr ⟨hfit, hstuffed, rfl⟩
  obtain ⟨m, hm, hbuild⟩ := exec_txBuild_of_frame hr hp hl (by rw [hreq]; exact hf)
  exact ⟨_, _, hbuild, rfl, rfl, read_of_memWriteList_zero hm⟩

/-! ## TX_EMIT, TX_ABORT and TX_COMPLETE -/

/-- Settles O29: the byte's cell lies in TXB and is written. -/
theorem emitSendsNextByte : Obligations.EmitSendsNextByte :=
  fun _ _ _ hr hp hl hi hsize hb =>
    exec_txEmit_of_byte hr hp hl hi (memRead_eq_ok.mpr ⟨Nat.lt_of_lt_of_le hi hsize, hb⟩)

theorem exec_txAbort_of_remaining {s : State} {r : Requester} (hr : s.running = true) (hp : s.txPhase = .emit)
    (hl : s.lock = .owned r) (hi : s.txIdx < s.txLen) : exec .txAbort s = .next (s.release r (-9)) := by
  have hg : txAbortGuard s = true :=
    (txAbortGuard_eq_txEmitGuard s).trans (guardOf_txEmit_of_owned hp hl hi)
  refine (whenEnabled_of_guard _ hr hg).trans ?_
  rw [State.holder_eq_some.mpr hl]
  rfl

/-- Settles O30: the holder is released, and `release` does not touch out_hist. -/
theorem abortReleasesWithFailure : Obligations.AbortReleasesWithFailure :=
  fun _ _ hr hp hl hactive hi =>
    ⟨_, exec_txAbort_of_remaining hr hp hl hi, State.released_release _ (State.hasSlot_of_active hactive)⟩

/-- Settles O31: the holder is released with tx_len, which the invariants bound in EMIT. -/
theorem completeReleasesWithLength : Obligations.CompleteReleasesWithLength := by
  intro s r hr hp hl hactive hi
  refine ⟨⟨_, exec_txComplete_of_end hr hp hl hi, State.released_release _ (State.hasSlot_of_active hactive)⟩,
    fun hs => ?_⟩
  obtain ⟨hmin, -⟩ := hs.txFrame hp
  obtain ⟨-, hmax⟩ := hs.txBounds hp
  exact ⟨hmin, hmax⟩

/-! ## The frames of the transmit operations -/

theorem execSendReq_frame {s t : State} {p : Nat} {cmd : Byte} {param : List Byte}
    (h : execSendReq p cmd param s = .next t) :
    t = { s with ports := t.ports, fault := t.fault, refused := t.refused }
      ∧ ∀ q, q ≠ .ext p → t.slot q = s.slot q := by
  obtain ⟨-, ⟨-, rfl⟩ | ⟨-, -, rfl⟩ | ⟨-, -, -, rfl⟩ | ⟨-, -, -, rfl⟩⟩ := execSendReq_cases h
  · exact ⟨rfl, fun q _ => State.refuse_slot ..⟩
  · exact ⟨rfl, fun q _ => State.fail_slot ..⟩
  · exact ⟨rfl, fun q _ => State.fail_slot ..⟩
  · exact ⟨rfl, fun q hq => State.slot_setSlot_other _ hq⟩

theorem execTxGrant_frame {s t : State} {r : Requester} (h : execTxGrant r s = .next t) :
    t = { s with lock := t.lock, txPhase := t.txPhase, ports := t.ports, rxe := t.rxe }
      ∧ (∀ q, q ≠ r → t.slot q = s.slot q)
      ∧ (t.slot r).req = (s.slot r).req ∧ (t.slot r).resp = (s.slot r).resp := by
  obtain ⟨hr, ⟨hl, hin, hw, -⟩ | rfl⟩ := execTxGrant_cases h
  · obtain ⟨u, hu, hframe, hsame, hothers⟩ := exec_txGrant_of_waiting hr (guardOf_txGrant.mpr ⟨hl, hin, hw⟩)
    obtain rfl : u = t := Host.Outcome.next.inj (hu.symm.trans h)
    exact ⟨by rw [hframe], hothers, by rw [hsame], by rw [hsame]⟩
  · exact ⟨rfl, fun _ _ => rfl, rfl, rfl⟩

/-- R157: the release of the lock holder moves no other requester. -/
theorem State.release_frame {s : State} {r : Requester} (v : Int) (hl : s.lock = .owned r) :
    s.release r v = { s with lock := (s.release r v).lock, txPhase := (s.release r v).txPhase,
                             ports := (s.release r v).ports, rxe := (s.release r v).rxe }
      ∧ ∀ q, s.lock ≠ .owned q → (s.release r v).slot q = s.slot q := by
  refine ⟨by cases r <;> rfl, fun q hq => State.slot_release_other v ?_⟩
  rintro rfl
  exact hq hl

/-- TX_BUILD waits, releases the lock holder, or stores its frame in TXB and enters EMIT. -/
theorem execTxBuild_outcome {s t : State} (h : execTxBuild s = .next t) :
    t = s
      ∨ (∃ r v, s.lock = .owned r ∧ t = s.release r v)
      ∨ ∃ r f m, s.lock = .owned r ∧ frameOf s.profile (s.slot r).req.cmd (s.slot r).req.param = .ok f
          ∧ memWriteList s.profile.txbSize s.txBuf 0 f = .ok m
          ∧ t = { s with txBuf := m, txLen := f.length, txIdx := 0, txPhase := .emit } := by
  obtain ⟨-, ⟨-, r, hl, rfl⟩ | rfl⟩ := execTxBuild_cases h
  · obtain ⟨e, -, hb⟩ | ⟨f, m, hf, hm, hb⟩ := buildFor_cases s r
    · exact .inr (.inl ⟨r, e.code, hl, hb⟩)
    · exact .inr (.inr ⟨r, f, m, hl, hf, hm, hb⟩)
  · exact .inl rfl

theorem execTxBuild_frame {s t : State} (h : execTxBuild s = .next t) :
    t = { s with lock := t.lock, txPhase := t.txPhase, ports := t.ports, rxe := t.rxe, txBuf := t.txBuf,
                 txLen := t.txLen, txIdx := t.txIdx }
      ∧ ∀ q, s.lock ≠ .owned q → t.slot q = s.slot q := by
  obtain rfl | ⟨r, v, hl, rfl⟩ | ⟨r, f, m, -, -, -, rfl⟩ := execTxBuild_outcome h
  · exact ⟨rfl, fun _ _ => rfl⟩
  · exact ⟨by cases r <;> rfl, (State.release_frame v hl).2⟩
  · exact ⟨rfl, fun q _ => State.slot_congr rfl rfl q⟩

/-- R153: TX_BUILD stores to the cells of the holder's frame alone. -/
theorem execTxBuild_keeps_cells_beyond {s t : State} {r : Requester} {f : List Byte} {a : Nat}
    (h : execTxBuild s = .next t) (hl : s.lock = .owned r)
    (hf : frameOf s.profile (s.slot r).req.cmd (s.slot r).req.param = .ok f) (ha : f.length ≤ a) :
    t.txBuf.read a = s.txBuf.read a := by
  obtain rfl | ⟨r', v, -, rfl⟩ | ⟨r', f', m, hl', hf', hm, rfl⟩ := execTxBuild_outcome h
  · rfl
  · rw [State.release_txBuf]
  · obtain rfl : r = r' := Lock.owned.inj (hl.symm.trans hl')
    obtain rfl : f = f' := Except.ok.inj (hf.symm.trans hf')
    exact (read_of_memWriteList_zero hm).2 a ha

/-- R162: a TX_BUILD that does not reach EMIT stores nothing. -/
theorem execTxBuild_txBuf_of_not_emit {s t : State} (h : execTxBuild s = .next t) (hp : t.txPhase ≠ .emit) :
    t.txBuf = s.txBuf := by
  obtain rfl | ⟨r, v, -, rfl⟩ | ⟨r, f, m, -, -, -, rfl⟩ := execTxBuild_outcome h
  · rfl
  · exact State.release_txBuf ..
  · exact absurd rfl hp

theorem execTxEmit_frame {s t : State} (h : execTxEmit s = .next t) :
    t = { s with outHist := t.outHist, txIdx := t.txIdx, fault := t.fault } := by
  obtain ⟨-, ⟨-, -, -, ⟨f, -, rfl⟩ | ⟨b, -, rfl⟩⟩ | rfl⟩ := execTxEmit_cases h <;> rfl

/-- TX_ABORT and TX_COMPLETE wait or release the lock holder. -/
theorem execTxEnd_frame {s t : State} (h : execTxAbort s = .next t ∨ execTxComplete s = .next t) :
    t = { s with lock := t.lock, txPhase := t.txPhase, ports := t.ports, rxe := t.rxe }
      ∧ ∀ q, s.lock ≠ .owned q → t.slot q = s.slot q := by
  have hend : t = s ∨ ∃ r v, s.lock = .owned r ∧ t = s.release r v := by
    obtain h | h := h
    · obtain ⟨-, ⟨-, -, r, hl, ht⟩ | ht⟩ := execTxAbort_cases h
      · exact .inr ⟨r, _, hl, ht⟩
      · exact .inl ht
    · obtain ⟨-, ⟨-, -, r, hl, ht⟩ | ht⟩ := execTxComplete_cases h
      · exact .inr ⟨r, _, hl, ht⟩
      · exact .inl ht
  obtain rfl | ⟨r, v, hl, rfl⟩ := hend
  · exact ⟨rfl, fun _ _ => rfl⟩
  · exact State.release_frame v hl

/-- Settles O35: each clause is the frame of its operation; TX_BUILD's cells are those of the holder's frame. -/
theorem transmitOperationsFrame : Obligations.TransmitOperationsFrame := by
  refine fun s t => ⟨fun _ _ _ => execSendReq_frame, fun _ => execTxGrant_frame, fun h => ?_, execTxEmit_frame,
    execTxEnd_frame⟩
  obtain ⟨hframe, hothers⟩ := execTxBuild_frame h
  exact ⟨hframe, hothers, fun _ _ hl hf _ ha => execTxBuild_keeps_cells_beyond h hl hf ha,
    fun hp _ => by rw [execTxBuild_txBuf_of_not_emit h hp]⟩

end Sys2Proof.Machine

/-! One requester at a time (43_transmit.md R158), and the segment of one grant on the channel (R159). -/

namespace Sys2Proof.Machine

/-! ## Mutual exclusion -/

/-- (I2): the active requester is the lock holder, so two active requesters are one. -/
theorem State.Inv.active_unique {s : State} {r q : Requester} (h : s.Inv) (hr : (s.slot r).pst = .active)
    (hq : (s.slot q).pst = .active) : r = q ∧ s.lock = .owned r := by
  have hlr := (h.lockActive r).mp hr
  have hlq := (h.lockActive q).mp hq
  exact ⟨Lock.owned.inj (hlr.symm.trans hlq), hlr⟩

/-- The transmit steps change the elements of the lock holder alone. -/
theorem exec_transmit_keeps_others {i : Instr} {s t : State} {q : Requester}
    (hi : i = .txBuild ∨ i = .txEmit ∨ i = .txAbort ∨ i = .txComplete) (h : exec i s = .next t)
    (hq : s.lock ≠ .owned q) : t.slot q = s.slot q := by
  obtain rfl | rfl | rfl | rfl := hi
  · exact (execTxBuild_frame h).2 q hq
  · rw [execTxEmit_frame h]
    exact State.slot_congr rfl rfl q
  · exact (execTxEnd_frame (.inl h)).2 q hq
  · exact (execTxEnd_frame (.inr h)).2 q hq

/-- Settles O55: by (I2) a requester that is not active does not hold the lock. -/
theorem transmitIsMutuallyExclusive : Obligations.TransmitIsMutuallyExclusive :=
  fun _ hs => ⟨fun _ _ hr hq => hs.active_unique hr hq,
    fun _ _ hi h q hq => exec_transmit_keeps_others hi h (mt (hs.lockActive q).mpr hq)⟩

/-! ## The segment of one grant -/

/-- R153: a frame stored in TXB opens its segment, of which no byte is out yet. -/
theorem Emitting.build {s : State} {r : Requester} {f : List Byte} {m : Memory} (hl : s.lock = .owned r)
    (hm : memWriteList s.profile.txbSize s.txBuf 0 f = .ok m) :
    Emitting { s with txBuf := m, txLen := f.length, txIdx := 0, txPhase := .emit } r s.outHist f where
  lock := hl
  phase := rfl
  length := rfl
  progress := Nat.zero_le _
  buffer := (read_of_memWriteList_zero hm).1
  emitted := by simp

/-- R154: the byte that TX_EMIT sends is the next one of the frame. -/
theorem Emitting.emit {s : State} {r : Requester} {base f : List Byte} {b : Byte} (h : Emitting s r base f)
    (hi : s.txIdx < s.txLen) (hb : memRead s.profile.txbSize s.txBuf s.txIdx = .ok b) :
    Emitting { s with outHist := s.outHist ++ [b], txIdx := s.txIdx + 1 } r base f := by
  have hi' : s.txIdx < f.length := Nat.lt_of_lt_of_eq hi h.length
  have hnext : f[s.txIdx]? = some b := (h.buffer _ hi').symm.trans (memRead_eq_ok.mp hb).2
  have hout : s.outHist ++ [b] = base ++ f.take (s.txIdx + 1) := by
    rw [h.emitted, List.take_add_one, hnext, Option.toList_some, List.append_assoc]
  exact { h with progress := hi', emitted := hout }

/-- R151: a port that queues a request touches neither the lock nor the transmit engine. -/
theorem Emitting.sendReq {s : State} {r : Requester} {base f : List Byte} (h : Emitting s r base f) (p : Nat)
    (x : Slot) : Emitting (s.setSlot (.ext p) x) r base f :=
  { h with }

/-- R157: the release ends the segment: the holder's answer is `v`, and what was emitted stays. -/
theorem Emitting.release {s : State} {r q : Requester} {base f : List Byte} (h : Emitting s r base f) (hs : s.Inv)
    (hl : s.lock = .owned q) (v : Int) :
    (s.release q v).lock = .free ∧ (s.release q v).outHist = base ++ f.take s.txIdx
      ∧ ((s.release q v).slot r).resp = some v := by
  obtain rfl : r = q := Lock.owned.inj (h.lock.symm.trans hl)
  have hslot := State.hasSlot_of_active (hs.active_of_owned hl)
  exact ⟨State.release_lock .., (State.release_outHist ..).trans h.emitted, by rw [State.slot_release_same v hslot]⟩

/-- R159, the opening: a TX_BUILD that takes the phase from BUILD to EMIT opens the segment of the holder's frame. -/
theorem Effect.opens_segment {s t : State} {r : Requester} (h : Effect s .txBuild t) (hp : s.txPhase = .build)
    (hl : s.lock = .owned r) (ht : t.txPhase = .emit) :
    ∃ f, frameOf s.profile (s.slot r).req.cmd (s.slot r).req.param = .ok f ∧ Emitting t r s.outHist f := by
  cases h with
  | quiet => simp [hp] at ht
  | buildFails => simp at ht
  | build q f m _ hlq hf hm =>
    obtain rfl : r = q := Lock.owned.inj (hl.symm.trans hlq)
    exact ⟨f, hf, .build hl hm⟩

/-- R159, the segment: every effect keeps it or is its release. -/
theorem Effect.keeps_or_ends_segment {i : Instr} {s t : State} {r : Requester} {base f : List Byte}
    (h : Effect s i t) (hi : i ≠ .reset) (hs : s.Inv) (he : Emitting s r base f) :
    Emitting t r base f
      ∨ (i = .txComplete ∧ t.lock = .free ∧ t.outHist = base ++ f ∧ (t.slot r).resp = some (f.length : Int))
      ∨ (i = .txAbort ∧ t.lock = .free ∧ (∃ k, k < f.length ∧ t.outHist = base ++ f.take k)
          ∧ (t.slot r).resp = some (-9)) := by
  cases h with
  | reset => exact absurd rfl hi
  | grant _ hl => simp [he.lock] at hl
  | buildFails _ _ hp | build _ _ _ hp => simp [he.phase] at hp
  | emit _ b _ _ hidx hb => exact .inl (he.emit hidx hb)
  | abort q _ hl hidx =>
    obtain ⟨hfree, hout, hresp⟩ := he.release hs hl (-9)
    exact .inr (.inr ⟨rfl, hfree, ⟨s.txIdx, Nat.lt_of_lt_of_eq hidx he.length, hout⟩, hresp⟩)
  | complete q _ hl hidx =>
    obtain ⟨hfree, hout, hresp⟩ := he.release hs hl (s.txLen : Int)
    have hall : f.take s.txIdx = f := by rw [hidx, he.length, List.take_length]
    exact .inr (.inl ⟨rfl, hfree, by rw [hout, hall], by rw [hresp, he.length]⟩)
  | sendReq p => exact .inl (he.sendReq p _)
  | quiet | init | seek | accum | overflow | stopDrop | stopDispatch | queueReply | report | handled | replyEnd =>
    exact .inl { he with }

/-- Settles O56: TX_BUILD opens the segment, TX_EMIT extends it, and only the two releases end it. -/
theorem grantSegmentIsFramePrefix : Obligations.GrantSegmentIsFramePrefix := by
  intro i s t r hs hi h
  have heffect := exec_effect h
  refine ⟨?_, fun base f he => heffect.keeps_or_ends_segment hi hs he⟩
  rintro rfl hp hl ht
  exact heffect.opens_segment hp hl ht

end Sys2Proof.Machine

/-! The control operations (44_control.md R170, R172; 70_reset_and_hazards.md R200): what INIT and STATUS_READ answer, and
the frames of INIT and RESET. -/

namespace Sys2Proof.Machine

/-! ## INIT and STATUS_READ -/

theorem exec_init_ok {s : State} (stackSize priority : Nat) (hr : s.running = true) (hi : s.initDone = false) :
    exec (.init stackSize priority .ok) s
      = .next { s with initDone := true, rxState := .seek, ret := some (.code 0) } := by
  refine (whenRunning_of_running _ hr).trans ?_
  rw [if_neg (by simp [hi])]
  rfl

theorem exec_init_fail {s : State} (stackSize priority : Nat) (hr : s.running = true) (hi : s.initDone = false) :
    exec (.init stackSize priority .fail) s = .next { s with ret := some (.code (-10)) } := by
  refine (whenRunning_of_running _ hr).trans ?_
  rw [if_neg (by simp [hi])]
  rfl

/-- R170: after a success the draw does not matter. -/
theorem exec_init_again {s : State} (stackSize priority : Nat) (draw : InitDraw) (hr : s.running = true)
    (hi : s.initDone = true) :
    exec (.init stackSize priority draw) s = .next { s with fault := some .doubleInit } := by
  refine (whenRunning_of_running _ hr).trans ?_
  rw [if_pos hi, State.fail_of_running _ hr]

/-- Settles O17: init_done is checked before the draw. -/
theorem initStartsReception : Obligations.InitStartsReception :=
  fun _ n p hr => ⟨fun hi => ⟨exec_init_ok n p hr hi, exec_init_fail n p hr hi⟩,
    fun hi draw => exec_init_again n p draw hr hi⟩

/-- Settles O18: STATUS_READ is not wrapped in `whenRunning`, so no mark stops it. -/
theorem statusReadReturnsTriple : Obligations.StatusReadReturnsTriple :=
  fun _ => rfl

/-! ## The frames -/

theorem execInit_frame {s t : State} {n p : Nat} {draw : InitDraw} (h : execInit n p draw s = .next t) :
    t = { s with initDone := t.initDone, rxState := t.rxState, ret := t.ret, fault := t.fault } := by
  obtain ⟨-, ⟨-, rfl⟩ | ⟨-, -, rfl⟩ | ⟨-, -, rfl⟩⟩ := execInit_cases h <;> rfl

/-- R200: neither the applied reset values nor a refusal touch the configuration. -/
theorem execReset_keeps_configuration {s t : State} (h : execReset s = .next t) :
    t.profile = s.profile ∧ t.script = s.script ∧ t.launched = s.launched := by
  obtain ⟨-, -, rfl⟩ | ⟨-, -, rfl⟩ | ⟨-, -, rfl⟩ := execReset_cases h <;> exact ⟨rfl, rfl, rfl⟩

/-- Settles O36: INIT's frame holds both buffers, so they read as before. -/
theorem controlOperationsFrame : Obligations.ControlOperationsFrame := by
  intro s t
  refine ⟨fun n p draw h => ?_, execReset_keeps_configuration⟩
  have hframe := execInit_frame (n := n) (p := p) h
  exact ⟨hframe, fun a => ⟨congrArg (·.rxBuf.read a) hframe, congrArg (·.txBuf.read a) hframe⟩⟩

end Sys2Proof.Machine

/-! The diagnostic history (60_exceptions.md R181, R196): which effects add a code, and that each drop and each local
report does. -/

namespace Sys2Proof.Machine

/-- R196: the two drops, the handler's local status and the failed reply are the effects that add a code. -/
theorem Effect.diagHist {s t : State} {i : Instr} (h : Effect s i t) (hi : i ≠ .reset) :
    t.diagHist = s.diagHist
      ∨ ∃ c, t.diagHist = s.diagHist ++ [c] ∧
          ((∃ b, i = .rxOverflow b ∧ c = -6) ∨ (∃ b, i = .rxStop b ∧ (c = -7 ∨ c = -8))
            ∨ (i = .hReturn c ∧ -4 ≤ c ∧ c ≤ -1) ∨ (i = .rxReplyEnd ∧ c < 0 ∧ (s.slot .rxe).resp = some c)) := by
  cases h with
  | reset => exact absurd rfl hi
  | overflow b => exact .inr ⟨-6, rfl, .inl ⟨b, rfl, rfl⟩⟩
  | stopDrop e _ he =>
    refine .inr ⟨e.code, rfl, .inr (.inl ⟨_, rfl, ?_⟩)⟩
    exact he.imp (congrArg ProtoError.code) (congrArg ProtoError.code)
  | report v _ hv => exact .inr ⟨v, rfl, .inr (.inr (.inl ⟨rfl, hv⟩))⟩
  | replyEnd v _ hv =>
    by_cases hneg : v < 0
    · exact .inr ⟨v, if_pos hneg, .inr (.inr (.inr ⟨rfl, hneg, hv⟩))⟩
    · exact .inl (if_neg hneg)
  | sendReq | grant => exact .inl (State.setSlot_diagHist ..)
  | buildFails | abort | complete => exact .inl (State.release_diagHist ..)
  | quiet | init | seek | accum | stopDispatch | queueReply | handled | build | emit => exact .inl rfl

/-- R133: a byte past a full buffer is recorded as FrameTooLong. -/
theorem execRxOverflow_diagHist {s t : State} {b : Byte} (h : execRxOverflow b s = .next t) (hx : s.rxState = .accum)
    (hb : b ≠ s.profile.stop) (hc : s.rxCnt = s.profile.maxFrameSize) : t.diagHist = s.diagHist ++ [-6] := by
  obtain ⟨hr, -⟩ := execRxOverflow_cases h
  obtain rfl := Host.Outcome.next.inj (h.symm.trans (overflowDropsFrame s b hr hx hb hc))
  rfl

/-- R134: an RX_STOP that goes back to SEEK dropped the frame, as BadSize or BadChecksum. -/
theorem execRxStop_diagHist {s t : State} {b : Byte} (h : execRxStop b s = .next t) (hx : s.rxState = .accum)
    (ht : t.rxState = .seek) : t.diagHist = s.diagHist ++ [-7] ∨ t.diagHist = s.diagHist ++ [-8] := by
  cases execRxStop_effect h with
  | quiet => simp [hx] at ht
  | stopDrop e _ he =>
    obtain rfl | rfl := he
    · exact .inl rfl
    · exact .inr rfl
  | stopDispatch => simp at ht

/-- R138: a local status returned from the call is recorded. -/
theorem execHReturn_diagHist {s t : State} {v : Int} (h : execHReturn v s = .next t) (hx : s.rxState = .dispatch)
    (hlo : -4 ≤ v) (hhi : v ≤ -1) : t.diagHist = s.diagHist ++ [v] := by
  obtain ⟨-, ⟨hne, -⟩ | ⟨-, hv, -⟩ | ⟨-, -, -, rfl⟩ | ⟨-, hv, -⟩⟩ := execHReturn_cases h
  · exact absurd hx hne
  · omega
  · rfl
  · omega

/-- R139: the negative response of a failed reply is recorded. -/
theorem execRxReplyEnd_diagHist {s t : State} {v : Int} (h : execRxReplyEnd s = .next t) (hx : s.rxState = .reply)
    (hv : s.rxe.resp = some v) (hneg : v < 0) : t.diagHist = s.diagHist ++ [v] := by
  obtain ⟨hr, -⟩ := execRxReplyEnd_cases h
  obtain rfl := Host.Outcome.next.inj (h.symm.trans (exec_rxReplyEnd_of_resp hr hx hv))
  exact if_pos hneg

/-- Settles O41: the first clause over the effects, each other clause by its operation's own recording. -/
theorem diagnosticEvents : Obligations.DiagnosticEvents := by
  intro i s t hi h
  refine ⟨(exec_effect h).diagHist hi, ?_, ?_, ?_, ?_⟩
  · rintro b rfl
    exact execRxOverflow_diagHist h
  · rintro b rfl
    exact execRxStop_diagHist h
  · rintro v rfl
    exact execHReturn_diagHist h
  · rintro v rfl
    exact execRxReplyEnd_diagHist h

end Sys2Proof.Machine

/-! The stop at a mark (60_exceptions.md R184): in a launched run every operation but STATUS_READ, and every step whose
head is not STATUS_READ, first asks for a state with no mark. -/

namespace Sys2Proof.Machine

theorem exec_eq_whenRunning {i : Instr} {s : State} (hl : s.launched = true) (hi : i ≠ .statusRead) :
    ∃ k, exec i s = whenRunning s k := by
  cases i with
  | statusRead => exact absurd rfl hi
  | reset => exact ⟨_, if_pos hl⟩
  | init | delimClass | chkGen | chkVerify | stuffByte | stuff | destuff | delimWrap | stuffAndChecksum
  | destuffAndVerify | encode | decodeCmd | decodeParam | rxSeek | rxAccum | rxOverflow | rxStop | hParamRead | hReturn
  | rxReplyEnd | sendReq | txGrant | txBuild | txEmit | txAbort | txComplete => exact ⟨_, rfl⟩

/-- Taking the head of the script moves no mark. -/
theorem retire_whenRunning_consume (s : State) (k : Out) :
    retire (whenRunning s.consume k) = whenRunning s (retire k) := by
  simp only [whenRunning, State.consume]
  cases s.fault with
  | some f => rfl
  | none => cases s.refused <;> rfl

theorem takeOperation_eq_whenRunning {i : Instr} {s : State} (hl : s.launched = true) (hi : i ≠ .statusRead) :
    ∃ k, takeOperation i s = whenRunning s k := by
  unfold takeOperation
  split
  · obtain ⟨k, hk⟩ := exec_eq_whenRunning (s := s.consume) hl hi
    exact ⟨retire k, by rw [hk, retire_whenRunning_consume]⟩
  · exact exec_eq_whenRunning hl hi

theorem step_eq_whenRunning {s : State} (hl : s.launched = true)
    (hs : ∀ w, s.script.head? = some w → decode w ≠ .ok .statusRead) : ∃ k, step s = whenRunning s k := by
  cases hscript : s.script with
  | nil => exact ⟨.next s, by simp only [step, takeNext, hscript]⟩
  | cons w rest =>
    cases hd : decode w with
    | error e =>
      exact ⟨retire (.next (s.consume.refuse .reservedOp)), by simp only [step, takeNext, hscript, hd, takeReserved]⟩
    | ok i =>
      rw [step_of_decode hscript hd]
      refine takeOperation_eq_whenRunning hl ?_
      rintro rfl
      exact hs w (by rw [hscript, List.head?_cons]) hd

/-- Settles O44: what asks for a state with no mark stops with the mark's name. -/
theorem marksStopEverything : Obligations.MarksStopEverything := by
  intro s hl
  refine ⟨fun f hf => ⟨fun i hi => ?_, fun hs => ?_⟩, fun r hf hr => ⟨fun i hi => ?_, fun hs => ?_⟩⟩
  · obtain ⟨k, hk⟩ := exec_eq_whenRunning hl hi
    rw [hk, whenRunning_of_fault k hf]
  · obtain ⟨k, hk⟩ := step_eq_whenRunning hl hs
    rw [hk, whenRunning_of_fault k hf]
  · obtain ⟨k, hk⟩ := exec_eq_whenRunning hl hi
    rw [hk, whenRunning_of_refused k hf hr]
  · obtain ⟨k, hk⟩ := step_eq_whenRunning hl hs
    rw [hk, whenRunning_of_refused k hf hr]

end Sys2Proof.Machine

/-! The two sides of the block (60_exceptions.md R187, 43_transmit.md R161). A side is a view: the state with every other
element at its reset value. An operation of a side reads and shows that view alone. -/

namespace Sys2Proof.Machine

/-! ## Outcomes seen through a view -/

/-- An outcome seen through `view`: a next state by its view, a stop as it is. -/
def Out.through (view : State → State) (o : Out) : Out :=
  match o with
  | .next t => .next (view t)
  | .fault f => .fault f
  | .refused r => .refused r

/-- The meaning `m` depends on the view of its state alone, as far as its outcome is seen through the same view. -/
def FactorsThrough (view : State → State) (m : State → Out) : Prop :=
  ∀ s, Out.through view (m (view s)) = Out.through view (m s)

/-- The unwinding step: from states with one view, next states with one view. -/
theorem FactorsThrough.unwind {view : State → State} {m : State → Out} (hm : FactorsThrough view m) {s t s' t' : State}
    (hst : view s = view t) (hs : m s = .next s') (ht : m t = .next t') : view s' = view t' := by
  have h : Out.through view (m s) = Out.through view (m t) := by rw [← hm s, ← hm t, hst]
  rw [hs, ht] at h
  exact Host.Outcome.next.inj h

/-- A view shows the marks, and seeing it twice is seeing it once. -/
structure IsView (view : State → State) : Prop where
  fault : ∀ s, (view s).fault = s.fault
  refused : ∀ s, (view s).refused = s.refused
  idem : ∀ s, view (view s) = view s

/-- Where the meaning's effect `f` factors through a view of the marks, so does the operation that has it. -/
theorem factorsThrough_whenRunning {view f : State → State} (hv : IsView view)
    (hf : ∀ s, view (f (view s)) = view (f s)) : FactorsThrough view (fun s => whenRunning s (.next (f s))) := by
  intro s
  simp only [whenRunning, hv.fault, hv.refused]
  cases s.fault with
  | some _ => rfl
  | none =>
    cases s.refused with
    | some _ => rfl
    | none => exact congrArg Host.Outcome.next (hf s)

theorem factorsThrough_whenEnabled {view f : State → State} {g : State → Bool} (hv : IsView view)
    (hg : ∀ s, g (view s) = g s) (hf : ∀ s, view (f (view s)) = view (f s)) :
    FactorsThrough view (fun s => whenEnabled (g s) s (.next (f s))) := by
  have h : (fun s => whenEnabled (g s) s (.next (f s))) = fun s => whenRunning s (.next (if g s then f s else s)) := by
    funext s
    rw [whenEnabled, apply_ite Host.Outcome.next]
  rw [h]
  refine factorsThrough_whenRunning hv fun s => ?_
  simp only [hg]
  split
  · exact hf s
  · exact hv.idem s

/-! ## The receive side -/

/-- What `SameReceiveSide` compares, beside the reset value of every other element. -/
def State.receiveSide (s : State) : State :=
  { State.reset with
    profile := s.profile
    rxState := s.rxState
    rxBuf := s.rxBuf
    rxCnt := s.rxCnt
    dispCmd := s.dispCmd
    dispLen := s.dispLen
    rejCmd := s.rejCmd
    errCnt := s.errCnt
    diagHist := s.diagHist
    fault := s.fault
    refused := s.refused
    ret := s.ret }

theorem State.receiveSide_eq_iff {s t : State} : s.receiveSide = t.receiveSide ↔ SameReceiveSide s t := by
  simp only [State.receiveSide, State.mk.injEq, SameReceiveSide, true_and, and_true]

theorem isView_receiveSide : IsView State.receiveSide := ⟨fun _ => rfl, fun _ => rfl, fun _ => rfl⟩

@[simp] theorem State.receiveSide_profile (s : State) : s.receiveSide.profile = s.profile := rfl
@[simp] theorem State.receiveSide_rxState (s : State) : s.receiveSide.rxState = s.rxState := rfl
@[simp] theorem State.receiveSide_rxBuf (s : State) : s.receiveSide.rxBuf = s.rxBuf := rfl
@[simp] theorem State.receiveSide_rxCnt (s : State) : s.receiveSide.rxCnt = s.rxCnt := rfl
@[simp] theorem State.receiveSide_dispLen (s : State) : s.receiveSide.dispLen = s.dispLen := rfl

theorem execRxSeek_factors (b : Byte) : FactorsThrough State.receiveSide (execRxSeek b) := by
  refine factorsThrough_whenEnabled isView_receiveSide (fun _ => rfl) fun s => ?_
  rw [State.receiveSide_profile]
  split <;> rfl

theorem execRxAccum_factors (b : Byte) : FactorsThrough State.receiveSide (execRxAccum b) := by
  refine factorsThrough_whenEnabled isView_receiveSide (fun _ => rfl) fun s => ?_
  rw [State.receiveSide_profile, State.receiveSide_rxBuf, State.receiveSide_rxCnt]
  split <;> rfl

theorem execRxOverflow_factors (b : Byte) : FactorsThrough State.receiveSide (execRxOverflow b) :=
  factorsThrough_whenEnabled isView_receiveSide (fun _ => rfl) fun _ => rfl

theorem dispatch_receiveSide (s : State) (m : Memory) (raw : List Byte) :
    (dispatch s.receiveSide m raw).receiveSide = (dispatch s m raw).receiveSide := by
  unfold dispatch
  rw [State.receiveSide_profile]
  split
  · rfl
  · split <;> rfl

theorem execRxStop_factors (b : Byte) : FactorsThrough State.receiveSide (execRxStop b) := by
  refine factorsThrough_whenEnabled isView_receiveSide (fun _ => rfl) fun s => ?_
  rw [State.receiveSide_profile, State.receiveSide_rxBuf, State.receiveSide_rxCnt]
  split
  · rfl
  · split
    · rfl
    · split
      · rfl
      · exact dispatch_receiveSide ..

theorem execHParamRead_factors (i : Nat) : FactorsThrough State.receiveSide (execHParamRead i) := by
  refine factorsThrough_whenRunning isView_receiveSide fun s => ?_
  rw [State.receiveSide_profile, State.receiveSide_rxState, State.receiveSide_rxBuf, State.receiveSide_dispLen]
  split
  · rfl
  · split
    · rfl
    · split <;> rfl

/-- R138: the queued reply is RXE's request, which is on the transmit side. -/
theorem execHReturn_factors (v : Int) : FactorsThrough State.receiveSide (execHReturn v) := by
  refine factorsThrough_whenRunning isView_receiveSide fun s => ?_
  rw [State.receiveSide_rxState]
  split
  · rfl
  · split
    · rfl
    · split <;> rfl

/-! ## The transmit side -/

/-- What `SameTransmitSide` compares, beside the reset value of every other element. -/
def State.transmitSide (s : State) : State :=
  { State.reset with
    profile := s.profile
    initDone := s.initDone
    lock := s.lock
    ports := s.ports
    rxe := s.rxe
    txPhase := s.txPhase
    txBuf := s.txBuf
    txLen := s.txLen
    txIdx := s.txIdx
    outHist := s.outHist
    fault := s.fault
    refused := s.refused }

theorem State.transmitSide_eq_iff {s t : State} : s.transmitSide = t.transmitSide ↔ SameTransmitSide s t := by
  simp only [State.transmitSide, State.mk.injEq, SameTransmitSide, true_and, and_true]

theorem isView_transmitSide : IsView State.transmitSide := ⟨fun _ => rfl, fun _ => rfl, fun _ => rfl⟩

@[simp] theorem State.transmitSide_profile (s : State) : s.transmitSide.profile = s.profile := rfl
@[simp] theorem State.transmitSide_initDone (s : State) : s.transmitSide.initDone = s.initDone := rfl
@[simp] theorem State.transmitSide_txBuf (s : State) : s.transmitSide.txBuf = s.txBuf := rfl
@[simp] theorem State.transmitSide_txIdx (s : State) : s.transmitSide.txIdx = s.txIdx := rfl
@[simp] theorem State.transmitSide_holder (s : State) : s.transmitSide.holder = s.holder := rfl

@[simp] theorem State.transmitSide_slot (s : State) (r : Requester) : s.transmitSide.slot r = s.slot r :=
  State.slot_congr rfl rfl r

theorem State.release_transmitSide (s : State) (r : Requester) (v : Int) :
    (s.transmitSide.release r v).transmitSide = (s.release r v).transmitSide := by
  cases r <;> rfl

theorem buildFor_transmitSide (s : State) (r : Requester) :
    (buildFor s.transmitSide r).transmitSide = (buildFor s r).transmitSide := by
  unfold buildFor
  rw [State.transmitSide_profile, State.transmitSide_txBuf, State.transmitSide_slot]
  split
  · exact State.release_transmitSide ..
  · split
    · exact State.release_transmitSide ..
    · split <;> rfl

theorem execSendReq_factors (p : Nat) (cmd : Byte) (param : List Byte) :
    FactorsThrough State.transmitSide (execSendReq p cmd param) := by
  refine factorsThrough_whenRunning isView_transmitSide fun s => ?_
  rw [State.transmitSide_profile, State.transmitSide_initDone, State.transmitSide_slot]
  split
  · rfl
  · split
    · rfl
    · split <;> rfl

theorem execTxGrant_factors (r : Requester) : FactorsThrough State.transmitSide (execTxGrant r) := by
  refine factorsThrough_whenEnabled isView_transmitSide (fun _ => ?_) fun _ => ?_
  · cases r <;> rfl
  · cases r <;> rfl

theorem execTxBuild_factors : FactorsThrough State.transmitSide execTxBuild := by
  refine factorsThrough_whenEnabled isView_transmitSide (fun _ => rfl) fun s => ?_
  rw [State.transmitSide_holder]
  split
  · rfl
  · exact buildFor_transmitSide ..

theorem execTxEmit_factors : FactorsThrough State.transmitSide execTxEmit := by
  refine factorsThrough_whenEnabled isView_transmitSide (fun _ => rfl) fun s => ?_
  rw [State.transmitSide_profile, State.transmitSide_txBuf, State.transmitSide_txIdx]
  split <;> rfl

theorem execTxAbort_factors : FactorsThrough State.transmitSide execTxAbort := by
  refine factorsThrough_whenEnabled isView_transmitSide (fun _ => rfl) fun s => ?_
  rw [State.transmitSide_holder]
  split
  · rfl
  · exact State.release_transmitSide ..

theorem execTxComplete_factors : FactorsThrough State.transmitSide execTxComplete := by
  refine factorsThrough_whenEnabled isView_transmitSide (fun _ => rfl) fun s => ?_
  rw [State.transmitSide_holder]
  split
  · rfl
  · exact State.release_transmitSide ..

/-! ## Both directions -/

theorem exec_factors_receiveSide {i : Instr}
    (hi : (∃ b, i = .rxSeek b ∨ i = .rxAccum b ∨ i = .rxOverflow b ∨ i = .rxStop b) ∨ (∃ k, i = .hParamRead k)
      ∨ ∃ v, i = .hReturn v) : FactorsThrough State.receiveSide (exec i) := by
  obtain ⟨b, rfl | rfl | rfl | rfl⟩ | ⟨k, rfl⟩ | ⟨v, rfl⟩ := hi
  · exact execRxSeek_factors b
  · exact execRxAccum_factors b
  · exact execRxOverflow_factors b
  · exact execRxStop_factors b
  · exact execHParamRead_factors k
  · exact execHReturn_factors v

theorem exec_factors_transmitSide {i : Instr}
    (hi : (∃ p cmd param, i = .sendReq p cmd param) ∨ (∃ r, i = .txGrant r) ∨ i = .txBuild ∨ i = .txEmit
      ∨ i = .txAbort ∨ i = .txComplete) : FactorsThrough State.transmitSide (exec i) := by
  obtain ⟨p, cmd, param, rfl⟩ | ⟨r, rfl⟩ | rfl | rfl | rfl | rfl := hi
  · exact execSendReq_factors p cmd param
  · exact execTxGrant_factors r
  · exact execTxBuild_factors
  · exact execTxEmit_factors
  · exact execTxAbort_factors
  · exact execTxComplete_factors

/-- Settles O47: an operation factors through its side, so equal sides before it give equal sides after it. -/
theorem sidesDoNotInterfere : Obligations.SidesDoNotInterfere := by
  intro i s t s' t' hs ht
  refine ⟨fun hi hst => ?_, fun hi hst => ?_⟩
  · rw [← State.receiveSide_eq_iff] at hst ⊢
    exact (exec_factors_receiveSide hi).unwind hst hs ht
  · rw [← State.transmitSide_eq_iff] at hst ⊢
    exact (exec_factors_transmitSide hi).unwind hst hs ht

end Sys2Proof.Machine

/-! RESET (70_reset_and_hazards.md R200, R201) with the seven conditions of a well-formed profile (00_scope.md R9), each
written out for the profile's own fields. -/

namespace Sys2Proof

/-! ## The conditions of R9 -/

/-- R9 (d) holds exactly when CHK answers CHK_W bytes for every list. -/
theorem Profile.chkWidthOk_iff (P : Profile) : P.chkWidthOk = true ↔ ∀ x, (P.checksum x).length = P.chkW := by
  refine ⟨Profile.checksum_length, fun h => ?_⟩
  unfold Profile.chkWidthOk
  split
  · next hsum =>
    have hlen := h []
    simp only [Profile.checksum, hsum, List.length_singleton] at hlen
    exact decide_eq_true hlen.symm
  · rfl

/-- R9 (a): RSV has three different bytes. -/
theorem Profile.nodup_rsv {P : Profile} : P.rsv.Nodup ↔ P.start ≠ P.stop ∧ P.start ≠ P.esc ∧ P.stop ≠ P.esc := by
  simp [Profile.rsv, and_assoc]

/-- Under R9 (a) ESCMAP takes START, STOP and ESC, in this order, to the profile's three escape codes. -/
theorem Profile.eimg_eq {P : Profile} (h : P.rsv.Nodup) : P.eimg = [P.escStart, P.escStop, P.escEsc] := by
  obtain ⟨hss, hse, hpe⟩ := Profile.nodup_rsv.mp h
  simp [Profile.eimg, Profile.rsv, Profile.escMap, hss.symm, hse.symm, hpe.symm]

/-- R9 (c): under (a), ESCMAP is injective on RSV exactly when EIMG has three different bytes. -/
theorem Profile.escMap_injective_iff {P : Profile} (h : P.rsv.Nodup) :
    (∀ b ∈ P.rsv, ∀ c ∈ P.rsv, P.escMap b = P.escMap c → b = c) ↔ P.eimg.Nodup := by
  refine ⟨fun hinj => ?_, fun hcodes b hb c hc heq => ?_⟩
  · exact List.pairwise_map.mpr (h.imp_of_mem fun hb hc hne heq => hne (hinj _ hb _ hc heq))
  · obtain ⟨i, hi, rfl⟩ := List.getElem_of_mem hb
    obtain ⟨j, hj, rfl⟩ := List.getElem_of_mem hc
    have hcode : P.eimg[i]'(by simpa only [Profile.eimg, List.length_map] using hi)
        = P.eimg[j]'(by simpa only [Profile.eimg, List.length_map] using hj) := by
      simpa only [Profile.eimg, List.getElem_map] using heq
    obtain rfl : i = j := (List.getElem_inj hcodes).mp hcode
    rfl

/-- R9: WF(P) on the escape codes themselves. -/
theorem Profile.wf_iff_fields (P : Profile) :
    P.wf = true ↔
      (P.start ≠ P.stop ∧ P.start ≠ P.esc ∧ P.stop ≠ P.esc)
      ∧ (∀ c ∈ [P.escStart, P.escStop, P.escEsc], c ≠ P.start ∧ c ≠ P.stop ∧ c ≠ P.esc)
      ∧ (P.escStart ≠ P.escStop ∧ P.escStart ≠ P.escEsc ∧ P.escStop ≠ P.escEsc)
      ∧ (∀ x, (P.checksum x).length = P.chkW)
      ∧ 1 ≤ P.chkW ∧ 1 + P.chkW ≤ P.maxFrameSize ∧ 1 ≤ P.numPorts := by
  rw [Profile.wf_iff, Profile.chkWidthOk_iff, ← Profile.nodup_rsv]
  refine and_congr_right fun ha => ?_
  have hoff : (∀ b ∈ P.rsv, P.escMap b ∉ P.rsv) ↔ ∀ c ∈ P.eimg, c ≠ P.start ∧ c ≠ P.stop ∧ c ≠ P.esc := by
    simp only [Profile.eimg, List.forall_mem_map, Profile.mem_rsv, not_or, ne_eq]
  have hcodes : [P.escStart, P.escStop, P.escEsc].Nodup
      ↔ P.escStart ≠ P.escStop ∧ P.escStart ≠ P.escEsc ∧ P.escStop ≠ P.escEsc := by
    simp [and_assoc]
  rw [hoff, Profile.escMap_injective_iff ha, Profile.eimg_eq ha, hcodes, Profile.minFrame]

/-- R9: a profile that fails one of the seven conditions is not well formed. -/
theorem Profile.wf_eq_false_of_fields {P : Profile}
    (h : (P.start = P.stop ∨ P.start = P.esc ∨ P.stop = P.esc)
      ∨ (∃ c ∈ [P.escStart, P.escStop, P.escEsc], c = P.start ∨ c = P.stop ∨ c = P.esc)
      ∨ (P.escStart = P.escStop ∨ P.escStart = P.escEsc ∨ P.escStop = P.escEsc)
      ∨ (∃ x, (P.checksum x).length ≠ P.chkW)
      ∨ P.chkW = 0 ∨ P.maxFrameSize < 1 + P.chkW ∨ P.numPorts = 0) : P.wf = false := by
  refine Bool.eq_false_iff.mpr fun hwf => ?_
  obtain ⟨⟨hss, hse, hpe⟩, hoff, ⟨hcs, hce, hde⟩, hlen, hw, hmin, hports⟩ := P.wf_iff_fields.mp hwf
  obtain ha | ⟨c, hc, hb⟩ | hd | ⟨x, hx⟩ | he | hf | hg := h
  · exact ha.elim hss (·.elim hse hpe)
  · obtain ⟨h1, h2, h3⟩ := hoff c hc
    exact hb.elim h1 (·.elim h2 h3)
  · exact hd.elim hcs (·.elim hce hde)
  · exact hx (hlen x)
  all_goals omega

namespace Machine

/-! ## The outcomes of RESET -/

theorem exec_reset_of_wf {s : State} (hl : s.launched = false) (hwf : s.profile.wf = true) :
    exec .reset s = .next s.applyReset := by
  rw [exec, execReset, if_neg (by simp [hl]), if_pos hwf]

theorem exec_reset_of_bad_profile {s : State} (hl : s.launched = false) (hr : s.running = true)
    (hwf : s.profile.wf = false) : exec .reset s = .next { s with refused := some .badProfile } := by
  rw [exec, execReset, if_neg (by simp [hl]), if_neg (by simp [hwf]), State.refuse_of_running _ hr]

theorem exec_reset_after_launch {s : State} (hl : s.launched = true) (hr : s.running = true) :
    exec .reset s = .next { s with refused := some .resetWhileRunning } := by
  rw [exec, execReset, if_pos hl, whenRunning_of_running _ hr, State.refuse_of_running _ hr]

/-- R200: after RESET a requester has the reset elements, one in REQ with a free request. -/
theorem State.applyReset_slot (s : State) (r : Requester) :
    s.applyReset.slot r = Slot.reset ∨ ∃ ctr, s.applyReset.slot r = unspecSlot ctr := by
  cases r with
  | rxe => exact .inr ⟨_, rfl⟩
  | ext k =>
    by_cases hk : k < s.profile.numPorts
    · exact .inr ⟨s.freeCtr + 3 + k, by simp [State.slot, State.applyReset, hk]⟩
    · exact .inl (by simp [State.slot, State.applyReset, hk])

/-- R200: after RESET no requester waits and none has an answer. -/
theorem State.applyReset_slot_idle (s : State) (r : Requester) :
    (s.applyReset.slot r).pst = .idle ∧ (s.applyReset.slot r).resp = none := by
  obtain h | ⟨ctr, h⟩ := s.applyReset_slot r <;> rw [h] <;> exact ⟨rfl, rfl⟩

/-- Settles O16: R9 in the profile's fields decides between the reset values and BadProfile, and a launched run refuses
RESET whatever the profile is. -/
theorem resetAppliesResetValues : Obligations.ResetAppliesResetValues := by
  intro s
  refine ⟨s.profile.wf_iff_fields, fun hl hwf => ⟨_, exec_reset_of_wf hl hwf, ?_⟩,
    fun hl hr hbad => exec_reset_of_bad_profile hl hr (Profile.wf_eq_false_of_fields hbad), exec_reset_after_launch⟩
  have hports : s.applyReset.ports.length = s.profile.numPorts := s.applyReset_atReset.ports
  exact ⟨rfl, rfl, hl, rfl, rfl, Memory.read_nil, rfl, rfl, rfl, s.applyReset_slot_idle, hports, rfl, Memory.read_nil,
    rfl, rfl, rfl, rfl, rfl, rfl⟩

end Machine
end Sys2Proof

/-! Two bounded guarantees (70_reset_and_hazards.md R210, R216): what TX_BUILD never refuses, and what a quiescent state
has no step of. -/

namespace Sys2Proof.Machine

/-! ## Short parameters -/

theorem length_rawOf {P : Profile} (h : P.chkWidthOk = true) (body : List Byte) :
    (rawOf P body).length = body.length + P.chkW := by
  rw [List.length_append, Profile.checksum_length h]

/-- R210: stuffing at most doubles the raw payload, so a payload that fits twice has a frame. -/
theorem exists_frameOf_of_double_fits {P : Profile} {param : List Byte} (cmd : Byte) (hw : P.chkWidthOk = true)
    (h : 2 * (param.length + 1 + P.chkW) ≤ P.maxFrameSize) : ∃ f, frameOf P cmd param = .ok f := by
  have hraw : (rawOf P (bodyOf cmd param)).length = param.length + 1 + P.chkW := length_rawOf hw _
  have hstuffed : (stuff P (rawOf P (bodyOf cmd param))).length ≤ P.maxFrameSize :=
    Nat.le_trans (length_stuff_le P _) (hraw ▸ h)
  exact ⟨_, frameOf_eq_ok.mpr ⟨by omega, hstuffed, rfl⟩⟩

/-- Settles O14: the holder's request has a frame, so TX_BUILD stores it and the holder keeps the lock. -/
theorem shortParameterAlwaysBuilds : Obligations.ShortParameterAlwaysBuilds := by
  intro s r hr hwf hp hl hshort
  obtain ⟨-, -, -, hwidth, -⟩ := (Profile.wf_iff s.profile).mp hwf
  obtain ⟨f, hf⟩ := exists_frameOf_of_double_fits (s.slot r).req.cmd hwidth hshort
  obtain ⟨m, -, hbuild⟩ := exec_txBuild_of_frame hr hp hl hf
  exact ⟨_, hbuild, rfl, hl⟩

/-! ## Quiescence -/

theorem mem_requesters {P : Profile} {r : Requester} : r ∈ requesters P ↔ inReq P r = true := by
  cases r <;> simp [requesters, inReq]

/-- R216 (a) to (c). -/
theorem State.idle_of_quiescent {s : State} (h : s.quiescent = true) :
    s.txPhase = .idle ∧ s.lock = .free ∧ (∀ r, inReq s.profile r = true → (s.slot r).pst = .idle)
      ∧ s.rxState ≠ .reply := by
  simp only [State.quiescent, Bool.and_eq_true, Bool.or_eq_true, decide_eq_true_eq, List.all_eq_true] at h
  obtain ⟨⟨⟨⟨⟨-, hp⟩, hl⟩, hidle⟩, hx⟩, -⟩ := h
  refine ⟨hp, hl, fun r hr => hidle r (mem_requesters.mpr hr), ?_⟩
  obtain (hx | hx) | hx := hx <;> rw [hx] <;> decide

/-- Settles O57: no requester in REQ waits, the lock is free, and RXE is in no REPLY. -/
theorem quiescentStateHasNoPendingWork : Obligations.QuiescentStateHasNoPendingWork := by
  intro s h
  obtain ⟨hp, hl, hidle, hx⟩ := State.idle_of_quiescent h
  have hgrant (r : Requester) : inReq s.profile r = false ∨ (s.slot r).pst ≠ .waiting := by
    cases hr : inReq s.profile r with
    | false => exact .inl rfl
    | true => exact .inr (by simp [hidle r hr])
  have hbuild : s.txPhase ≠ .build := by simp [hp]
  have hemit : s.txPhase ≠ .emit := by simp [hp]
  exact ⟨fun r => txGrantGuard_eq_false.mpr (.inr (hgrant r)), txBuildGuard_eq_false.mpr (.inl hbuild),
    txEmitGuard_eq_false.mpr (.inl hemit), txEmitGuard_eq_false.mpr (.inl hemit),
    txCompleteGuard_eq_false.mpr (.inl hemit), rxReplyEndGuard_eq_false.mpr (.inl hx)⟩

end Sys2Proof.Machine

/-! The reset state (10_state.md section 5). -/

namespace Sys2Proof.Machine

/-- R30: in the reset state no requester waits and none has an answer, a port number past the list included. -/
theorem State.reset_slot_idle (r : Requester) :
    (State.reset.slot r).pst = .idle ∧ (State.reset.slot r).resp = none := by
  rw [State.reset_slot]
  exact ⟨rfl, rfl⟩

/-- Settles O15: every requester's slot is the reset slot, both memories are empty, so no cell of them reads, and the
other elements are fields of the reset state. -/
theorem resetStateHasTheTabledValues : Obligations.ResetStateHasTheTabledValues :=
  have h : State.reset.AtReset := State.reset_atReset
  ⟨rfl, h.rxState, Memory.read_nil, h.rxCnt, rfl, h.lock, State.reset_slot_idle, h.txPhase, Memory.read_nil, rfl, rfl,
    rfl, rfl, rfl, rfl⟩

end Sys2Proof.Machine
